-- ==== Sys2Proof/Word.lean ====
section
/-! DEFINITION. The word types: bytes, byte strings and the 32-bit command word (R10, R70). -/

namespace Sys2Proof

/-- R10: a byte, 0 to 255. -/
abbrev Byte := BitVec 8

/-- R10: a byte string; index 0 comes first. -/
abbrev Bytes := List Byte

/-- R70: the 32-bit command word. -/
abbrev CommandWord := BitVec 32

end Sys2Proof
end

