-- ==== Sys2Proof/Syntax.lean ====
section
/-! DEFINITION. The commands (R76: one constructor per row of the opcode table) and the operand names (R14, R16). -/

namespace Sys2Proof

/-- R76: the complete list of legal commands. A command word has no operand field (R78). -/
inductive Instr where
  | digestSha256
  | digestSha512
  | deriveKeyAes256
  | encryptAes256
  | encryptPhraseAes256
  | decryptAes256
  | decryptPhraseAes256
  | aesKeyExpand
  | aesCbcEncrypt
  | aesCbcDecrypt
  | pkcs7Pad
  | pkcs7Unpad
  | ivPrepend
  deriving DecidableEq, Repr

/-- R16: the operand roles: A the data, B the key material, C the auxiliary input. -/
inductive OperandName where
  | a
  | b
  | c
  deriving DecidableEq, Repr

/-- R76: the mnemonic of a command. -/
def Instr.mnemonic : Instr → String
  | .digestSha256 => "DIGEST.SHA256"
  | .digestSha512 => "DIGEST.SHA512"
  | .deriveKeyAes256 => "DERIVE_KEY.AES256"
  | .encryptAes256 => "ENCRYPT.AES256"
  | .encryptPhraseAes256 => "ENCRYPT_PHRASE.AES256"
  | .decryptAes256 => "DECRYPT.AES256"
  | .decryptPhraseAes256 => "DECRYPT_PHRASE.AES256"
  | .aesKeyExpand => "AES_KEY_EXPAND"
  | .aesCbcEncrypt => "AES_CBC_ENCRYPT"
  | .aesCbcDecrypt => "AES_CBC_DECRYPT"
  | .pkcs7Pad => "PKCS7_PAD"
  | .pkcs7Unpad => "PKCS7_UNPAD"
  | .ivPrepend => "IV_PREPEND"

end Sys2Proof
end

