-- ==== Sys2Proof/Decode.lean ====
section
/-! DEFINITION. Decoding a command word (R70 to R76, steps 1 and 2 of R80), total and rejecting by name; then encoding. -/

namespace Sys2Proof

/-- R80 steps 1 and 2: why a command word encodes no operation. -/
inductive DecodeError where
  /-- R75: `OP` is reserved. -/
  | reservedOp
  /-- R74: `RSV` is not 0x0000. -/
  | rsvNonzero
  /-- R73: `ALG` is not 0 in a stage command. -/
  | stageAlgNonzero
  /-- R73: `ALG` is outside the supported set of a top-level command. -/
  | unsupportedAlg (alg : Byte)
  deriving DecidableEq, Repr

/-- R70: `OP` = bits 7..0. -/
def opField (w : CommandWord) : Byte := w.extractLsb' 0 8

/-- R70: `ALG` = bits 15..8. -/
def algField (w : CommandWord) : Byte := w.extractLsb' 8 8

/-- R70: `RSV` = bits 31..16. -/
def rsvField (w : CommandWord) : BitVec 16 := w.extractLsb' 16 16

/-- R80: `OP` values of the top-level commands. -/
def isTopLevel (op : Byte) : Bool := [0x01, 0x02, 0x03, 0x04, 0x05, 0x06].contains op

/-- R80: `OP` values of the stage commands. -/
def isStage (op : Byte) : Bool := [0x10, 0x11, 0x12, 0x13, 0x14, 0x15].contains op

/-- R72, R80: the case list on (`OP`, `ALG`). -/
def instrOf (op alg : Byte) : Option Instr :=
  if op = 0x01 ∧ alg = 3 then some .digestSha256
  else if op = 0x01 ∧ alg = 5 then some .digestSha512
  else if op = 0x02 ∧ alg = 2 then some .deriveKeyAes256
  else if op = 0x03 ∧ alg = 2 then some .encryptAes256
  else if op = 0x04 ∧ alg = 2 then some .encryptPhraseAes256
  else if op = 0x05 ∧ alg = 2 then some .decryptAes256
  else if op = 0x06 ∧ alg = 2 then some .decryptPhraseAes256
  else if op = 0x10 ∧ alg = 0 then some .aesKeyExpand
  else if op = 0x11 ∧ alg = 0 then some .aesCbcEncrypt
  else if op = 0x12 ∧ alg = 0 then some .aesCbcDecrypt
  else if op = 0x13 ∧ alg = 0 then some .pkcs7Pad
  else if op = 0x14 ∧ alg = 0 then some .pkcs7Unpad
  else if op = 0x15 ∧ alg = 0 then some .ivPrepend
  else none

/-- R80: steps 1 and 2, in their order, and the case list. The last error is that of step 2: after step 1 a word outside the
case list is a top-level command with an `ALG` outside its supported set. -/
def decode (w : CommandWord) : Except DecodeError Instr :=
  let op := opField w
  let alg := algField w
  if ¬ (isTopLevel op || isStage op) then .error .reservedOp
  else if rsvField w ≠ 0 then .error .rsvNonzero
  else if isStage op ∧ alg ≠ 0 then .error .stageAlgNonzero
  else
    match instrOf op alg with
    | some i => .ok i
    | none => .error (.unsupportedAlg alg)

/-- R76: the command word of a command. -/
def encode : Instr → CommandWord
  | .digestSha256 => 0x00000301
  | .digestSha512 => 0x00000501
  | .deriveKeyAes256 => 0x00000202
  | .encryptAes256 => 0x00000203
  | .encryptPhraseAes256 => 0x00000204
  | .decryptAes256 => 0x00000205
  | .decryptPhraseAes256 => 0x00000206
  | .aesKeyExpand => 0x00000010
  | .aesCbcEncrypt => 0x00000011
  | .aesCbcDecrypt => 0x00000012
  | .pkcs7Pad => 0x00000013
  | .pkcs7Unpad => 0x00000014
  | .ivPrepend => 0x00000015

/-- The command word of a table row: its bits, bit 0 least significant; bits above `nbits` are 0 (R54: one 32-bit value). -/
def tableWord (nbits w : Nat) : CommandWord := BitVec.ofNat 32 (w % 2 ^ nbits)

/-- What `decode` reads from a word numbered as the opcode table numbers it; there is no command longer than 32 bits (R70). -/
def decodeTableWord (nbits w : Nat) : Option Instr :=
  if nbits ≤ 32 then
    match decode (tableWord nbits w) with
    | .ok i => some i
    | .error _ => none
  else none

end Sys2Proof
end

