-- ==== Sys2Proof/Machine/Flags.lean ====
section
/-! DEFINITION. The status codes and error details: `STATUS` and `INFO` (R300 to R302). The block has no condition flags (R28). -/

namespace Sys2Proof.Machine

/-- R302: the reasons of an `INPUT_VALIDATION` error. -/
inductive Reason where
  | empty
  | length
  | tooLong
  deriving DecidableEq, Repr

/-- R14, R300: the errors a command can complete with. `FORMAT_ERROR` is the host's and is never raised by the block (R308). -/
inductive CommandError where
  | inputValidation (reason : Reason) (operand : OperandName)
  | unsupportedOperation (alg : Byte)
  | malformedEnvelope
  | decryptionFailure
  | illegalCommand (detail : Byte)
  deriving DecidableEq, Repr

/-- R302: `INFO[7:4]`. -/
def reasonCode : Reason → Byte
  | .empty => 1
  | .length => 2
  | .tooLong => 3

/-- R302: `INFO[3:0]`. -/
def operandCode : OperandName → Byte
  | .a => 1
  | .b => 2
  | .c => 3

/-- R300: the status of a command that completes without error. -/
def statusOk : Byte := 0x00

/-- R300, R308: the code the HOST reports for malformed base64; the block never writes it. -/
def statusFormatError : Byte := 0x05

/-- R300: the `STATUS` code of an error. -/
def errorStatus : CommandError → Byte
  | .inputValidation _ _ => 0x01
  | .unsupportedOperation _ => 0x02
  | .malformedEnvelope => 0x03
  | .decryptionFailure => 0x04
  | .illegalCommand _ => 0x06

/-- R301, R302: the `INFO` value of an error. -/
def errorInfo : CommandError → Byte
  | .inputValidation reason operand => reasonCode reason * 16 + operandCode operand
  | .unsupportedOperation alg => alg
  | .malformedEnvelope => 0x01
  | .decryptionFailure => 0x00
  | .illegalCommand detail => detail

/-- R80, R301: the error a word that encodes no operation completes with. -/
def decodeErrorOf : DecodeError → CommandError
  | .reservedOp => .illegalCommand 0x01
  | .stageAlgNonzero => .illegalCommand 0x02
  | .rsvNonzero => .illegalCommand 0x03
  | .unsupportedAlg alg => .unsupportedOperation alg

end Sys2Proof.Machine
end

