-- ==== Sys2Proof/Config.lean ====
section
/-! DEFINITION. What an implementation fixes (R9) and the free values: constants with no body. -/

namespace Sys2Proof

namespace Config

/-- `N_CHANNELS` less one: an OPEN parameter (R9, D2; log 1). Safe: no value can be proved of it. -/
opaque nChannelsLessOne : Nat

/-- `MAX_LEN` less 48: an OPEN parameter (R9, D12; log 2). Its type holds it below 2^60 - 48. -/
opaque maxLenLess48 : Fin (2 ^ 60 - 49 + 1)

/-- The byte string configured as default salt, before the bound of R9 is put on it (D9; log 3). -/
opaque saltParameter : Bytes

/-- R264, U2: the 16-byte value of the n-th draw of the entropy source, under no law (log 4). -/
opaque draw : Nat → Vector Byte 16

end Config

/-- The parameters of R9 that a command's result depends on (R29). -/
structure Params where
  /-- `MAX_LEN` -/
  maxLen : Nat
  /-- `DEFAULT_SALT_BYTES` -/
  defaultSalt : Bytes
  deriving DecidableEq, Repr

namespace Config

/-- R9: `N_CHANNELS`, an integer of at least 1. -/
def nChannels : Nat := nChannelsLessOne + 1

/-- R9: `MAX_LEN`, with 48 ≤ `MAX_LEN` < 2^60. -/
def maxLen : Nat := maxLenLess48.val + 48

/-- R9: `DEFAULT_SALT_BYTES`, a fixed byte string of length at most `MAX_LEN`. -/
def defaultSalt : Bytes := saltParameter.take maxLen

/-- The parameters of this machine, fixed before reset and never changed (R9, R341). -/
def params : Params := ⟨maxLen, defaultSalt⟩

end Config

end Sys2Proof
end

