-- ==== Sys2Proof/WellFormed.lean ====
section
/-! DEFINITION. Well-formed commands. A command word has no field that could be ill formed (R76, R78), so every `Instr` is
well formed; what can be ill formed is the command TOGETHER with its operands: R77 constrains their lengths. A command whose
operands break a constraint is no stuck machine: it completes with the error its rule names. -/

namespace Sys2Proof

/-- R171: the raw key lengths accepted. -/
def legalKeyLength (n : Nat) : Bool := n == 16 || n == 24 || n == 32

/-- R77: data of the stage commands that need whole blocks: length 16·n, n ≥ 1. -/
def wholeBlocks (n : Nat) : Bool := n != 0 && n % 16 == 0

/-- R77: the constraints on the lengths of the operands a command reads, but for `MAX_LEN`. -/
def lengthsLegal : Instr → (a b c : Bytes) → Bool
  | .digestSha256, a, _, _ => a.length != 0
  | .digestSha512, a, _, _ => a.length != 0
  | .deriveKeyAes256, _, b, _ => b.length != 0
  | .encryptAes256, a, b, _ => a.length != 0 && legalKeyLength b.length
  | .encryptPhraseAes256, a, b, _ => a.length != 0 && b.length != 0
  | .decryptAes256, a, b, _ => decide (16 < a.length) && legalKeyLength b.length
  | .decryptPhraseAes256, a, b, _ => decide (16 < a.length) && b.length != 0
  | .aesKeyExpand, _, b, _ => legalKeyLength b.length
  | .aesCbcEncrypt, a, b, c => wholeBlocks a.length && legalKeyLength b.length && c.length == 16
  | .aesCbcDecrypt, a, b, c => wholeBlocks a.length && legalKeyLength b.length && c.length == 16
  | .pkcs7Pad, _, _, _ => true
  | .pkcs7Unpad, a, _, _ => wholeBlocks a.length
  | .ivPrepend, _, _, c => c.length == 16

/-- R51, R77, R79: every operand the command reads is at most `MAX_LEN` bytes long. -/
def sizesLegal (p : Params) : Instr → (a b c : Bytes) → Bool
  | .digestSha256, a, _, _ => decide (a.length ≤ p.maxLen)
  | .digestSha512, a, _, _ => decide (a.length ≤ p.maxLen)
  | .deriveKeyAes256, _, b, c => decide (b.length ≤ p.maxLen) && decide (c.length ≤ p.maxLen)
  | .encryptAes256, a, b, _ => decide (a.length ≤ p.maxLen) && decide (b.length ≤ p.maxLen)
  | .encryptPhraseAes256, a, b, c =>
    decide (a.length ≤ p.maxLen) && decide (b.length ≤ p.maxLen) && decide (c.length ≤ p.maxLen)
  | .decryptAes256, a, b, _ => decide (a.length ≤ p.maxLen) && decide (b.length ≤ p.maxLen)
  | .decryptPhraseAes256, a, b, c =>
    decide (a.length ≤ p.maxLen) && decide (b.length ≤ p.maxLen) && decide (c.length ≤ p.maxLen)
  | .aesKeyExpand, _, b, _ => decide (b.length ≤ p.maxLen)
  | .aesCbcEncrypt, a, b, c =>
    decide (a.length ≤ p.maxLen) && decide (b.length ≤ p.maxLen) && decide (c.length ≤ p.maxLen)
  | .aesCbcDecrypt, a, b, c =>
    decide (a.length ≤ p.maxLen) && decide (b.length ≤ p.maxLen) && decide (c.length ≤ p.maxLen)
  | .pkcs7Pad, a, _, _ => decide (a.length ≤ p.maxLen)
  | .pkcs7Unpad, a, _, _ => decide (a.length ≤ p.maxLen)
  | .ivPrepend, a, _, c => decide (a.length ≤ p.maxLen) && decide (c.length ≤ p.maxLen)

/-- R77: a command with operands that meet every constraint on their lengths. -/
def WellFormed (p : Params) (i : Instr) (a b c : Bytes) : Bool := sizesLegal p i a b c && lengthsLegal i a b c

end Sys2Proof
end

