-- ==== Sys2Proof/Machine/Operands.lean ====
section
/-! DEFINITION. The operands: which a command reads (R79), and every check on them that raises an error. -/

namespace Sys2Proof.Machine

/-- R79: the operands a command reads, in order. -/
def reads : Instr → List OperandName
  | .digestSha256 => [.a]
  | .digestSha512 => [.a]
  | .deriveKeyAes256 => [.b, .c]
  | .encryptAes256 => [.a, .b]
  | .encryptPhraseAes256 => [.a, .b, .c]
  | .decryptAes256 => [.a, .b]
  | .decryptPhraseAes256 => [.a, .b, .c]
  | .aesKeyExpand => [.b]
  | .aesCbcEncrypt => [.a, .b, .c]
  | .aesCbcDecrypt => [.a, .b, .c]
  | .pkcs7Pad => [.a]
  | .pkcs7Unpad => [.a]
  | .ivPrepend => [.a, .c]

/-- R22: the operand of a name. -/
def operand (x : OperandName) (a b c : Bytes) : Bytes :=
  match x with
  | .a => a
  | .b => b
  | .c => c

/-- R303: `raise` when the condition holds, and go on otherwise. -/
def raiseIf (condition : Bool) (e : CommandError) : Except CommandError Unit :=
  if condition then .error e else .ok ()

/-- R51, R80 step 3: each operand read, in order, is at most `MAX_LEN` bytes long. -/
def checkSizes (p : Params) (a b c : Bytes) : List OperandName → Except CommandError Unit
  | [] => .ok ()
  | x :: xs => do
    raiseIf (decide (p.maxLen < (operand x a b c).length)) (.inputValidation .tooLong x)
    checkSizes p a b c xs

/-- The check of a non-empty operand: `IV(EMPTY, x)` (R302). -/
def requireNonEmpty (x : OperandName) (v : Bytes) : Except CommandError Unit :=
  raiseIf (v.length == 0) (.inputValidation .empty x)

/-- R200, R262: a raw key B is non-empty and 16, 24 or 32 bytes long. -/
def requireRawKey (b : Bytes) : Except CommandError Unit := do
  requireNonEmpty .b b
  raiseIf (!legalKeyLength b.length) (.inputValidation .length .b)

/-- R240, R243: stage data A is non-empty and a multiple of 16 bytes long. -/
def requireWholeBlocks (a : Bytes) : Except CommandError Unit := do
  requireNonEmpty .a a
  raiseIf (a.length % 16 != 0) (.inputValidation .length .a)

/-- R240, R244: an IV C is non-empty and 16 bytes long. -/
def requireIv (c : Bytes) : Except CommandError Unit := do
  requireNonEmpty .c c
  raiseIf (c.length != 16) (.inputValidation .length .c)

/-- R270: `CheckEnvelope`. -/
def checkEnvelope (a : Bytes) : Except CommandError Unit := do
  requireNonEmpty .a a
  raiseIf (decide (a.length ≤ 16)) .malformedEnvelope

end Sys2Proof.Machine
end

