-- ==== Sys2Proof/Machine/State.lean ====
section
/-! DEFINITION. The state: the channels (R20), and the model's own fields for the agents outside them (logs 4, 5, 11, 13). -/

namespace Sys2Proof.Machine

/-- R20: what one channel holds. -/
structure Channel where
  /-- R21: the latched command word -/
  cmd : CommandWord
  /-- R22: the latched operands -/
  a : Bytes
  b : Bytes
  c : Bytes
  /-- R23: a command is latched and not yet executed -/
  busy : Bool
  /-- R24: a completed result waits to be collected -/
  resultValid : Bool
  /-- R25: completion status -/
  status : Byte
  /-- R26: error detail -/
  info : Byte
  /-- R27: result -/
  out : Bytes
  deriving DecidableEq, Repr

/-- R35: the reset value of every item of a channel. -/
def Channel.reset : Channel :=
  { cmd := 0x00000000, a := [], b := [], c := [], busy := false, resultValid := false, status := 0x00, info := 0x00, out := [] }

/-- One move of an agent (R7). The channel number stands first. -/
inductive Move where
  /-- R30: the host submits a command word and three operands -/
  | submit (k : Nat) (cmd : CommandWord) (a b c : Bytes)
  /-- R31: channel k takes its EXECUTE step -/
  | execute (k : Nat)
  /-- R32: the host collects -/
  | collect (k : Nat)
  /-- R23: the host reads `BUSY` -/
  | readBusy (k : Nat)
  /-- R24: the host reads `RESULT_VALID` -/
  | readResultValid (k : Nat)
  /-- R340: the host or platform resets the block -/
  | reset
  deriving DecidableEq, Repr

/-- Why a step does not go through. -/
inductive Fault where
  /-- R33, R312: `COLLECT_NOTHING_PENDING`, the HOST's fault of a COLLECT that finds `BUSY` = 0 and `RESULT_VALID` = 0. It is
  never final: it is handed to the host as a reply and the machine goes on (log 8). Raised by `Machine.collect`. Safe. -/
  | collectNothingPending
  /-- A move of the agenda, or `active`, names a channel number that is not below `N_CHANNELS`; the spec has no such channel
  (R20, R323). Raised by every operation that looks a channel up (log 10). Safe: the model stops. -/
  | noSuchChannel (k : Nat)
  deriving DecidableEq, Repr

/-- Why an instruction has no meaning. R312: the spec refuses nothing, and no instruction of this model is refused. -/
inductive Refusal where
  /-- An instruction not modelled yet, raised by no arm of `exec`. Safe. -/
  | notModelled (mnemonic : String)
  deriving DecidableEq, Repr

/-- What the host is handed (R28: nothing else of a channel can be read). -/
inductive Reply where
  /-- R32: the triple COLLECT returns -/
  | collected (k : Nat) (status info : Byte) (out : Bytes)
  /-- R312: a host fault -/
  | fault (k : Nat) (f : Fault)
  /-- R23: the value of `BUSY` read -/
  | busy (k : Nat) (v : Bool)
  /-- R24: the value of `RESULT_VALID` read -/
  | resultValid (k : Nat) (v : Bool)
  deriving DecidableEq, Repr

/-- The state of the machine. The block's own state is `channels` (R20); the other fields are the model's. -/
structure State where
  /-- R20: channel k is the k-th of the list -/
  channels : List Channel
  /-- which agent moves next, first move first (log 5) -/
  agenda : List Move
  /-- what the host has been handed, newest last (log 11) -/
  replies : List Reply
  /-- the channel whose EXECUTE step is taken (log 13) -/
  active : Nat
  /-- how many draws of the entropy source have been taken (R264; log 4) -/
  draws : Nat
  deriving DecidableEq, Repr

/-- R35, R340: the machine right after reset: every channel at its reset values; the model's own fields empty and 0. -/
def State.reset : State :=
  { channels := List.replicate Config.nChannels Channel.reset, agenda := [], replies := [], active := 0, draws := 0 }

end Sys2Proof.Machine
end

