-- ==== Sys2Proof/Machine/Ops.lean ====
section
/-! DEFINITION. The named operations on channels: looking one up, completing a command (with its result, or with the error it
raised: the block has no other exception, R310, and no return from one, R311), and the host's actions. -/

namespace Sys2Proof.Machine

/-- R80, R303: what `Run` returns. -/
structure Completion where
  status : Byte
  info : Byte
  out : Bytes
  deriving DecidableEq, Repr

/-- R80, R303: a rule that ends without `raise` returns (0x00, 0x00, OUT); `raise Error(kind, info)` returns (kind, info, ε). -/
def Completion.ofResult : Except CommandError Bytes → Completion
  | .ok out => { status := statusOk, info := 0x00, out := out }
  | .error e => { status := errorStatus e, info := errorInfo e, out := [] }

/-- R31: the channel after its EXECUTE step, whatever it held before. -/
def Channel.executed (r : Completion) : Channel :=
  { cmd := 0, a := [], b := [], c := [], busy := false, resultValid := true, status := r.status, info := r.info,
    out := if r.status = statusOk then r.out else [] }

/-- R20: channel k, if there is one. -/
def State.channel? (s : State) (k : Nat) : Option Channel := s.channels[k]?

/-- R29: a step writes its own channel and no other. -/
def State.setChannel (s : State) (k : Nat) (ch : Channel) : State := { s with channels := s.channels.set k ch }

/-- The first move of the agenda has been made. -/
def State.nextMove (s : State) : State := { s with agenda := s.agenda.tail }

/-- The host is handed a reply. -/
def State.hand (s : State) (r : Reply) : State := { s with replies := s.replies ++ [r] }

/-- The draw the next encryption takes (R264; log 4). -/
def State.iv (s : State) : Bytes := (Config.draw s.draws).toList

/-- R264: the draws taken by a command with this result: one where no check raised an error, none otherwise. -/
def drawsTaken : Except CommandError Bytes → Nat
  | .ok _ => 1
  | .error _ => 0

/-- R31: the EXECUTE effect, on the active channel, of a command that takes no draw: `rule` gives its result from the latched
operands; STATUS, INFO and OUT are written from it and the latches are cleared. -/
def complete (rule : (a b c : Bytes) → Except CommandError Bytes) (s : State) : Host.Outcome State Fault Refusal :=
  match s.channel? s.active with
  | none => .fault (.noSuchChannel s.active)
  | some ch => .next (s.setChannel s.active (Channel.executed (Completion.ofResult (rule ch.a ch.b ch.c))))

/-- R31, R264: the same for an encryption command, whose result also depends on the draw it takes. -/
def completeDrawing (rule : (a b c iv : Bytes) → Except CommandError Bytes) (s : State) : Host.Outcome State Fault Refusal :=
  match s.channel? s.active with
  | none => .fault (.noSuchChannel s.active)
  | some ch =>
    let r := rule ch.a ch.b ch.c s.iv
    .next { s.setChannel s.active (Channel.executed (Completion.ofResult r)) with draws := s.draws + drawsTaken r }

/-- R303: raising an error ends the command of the active channel: `STATUS` and `INFO` carry the error, `OUT` is ε, the
latches are cleared, and nothing else happens. -/
def raiseError (e : CommandError) (s : State) : Host.Outcome State Fault Refusal :=
  complete (fun _ _ _ => .error e) s

/-- R30: the channel after SUBMIT, whatever it held before. -/
def Channel.submitted (cmd : CommandWord) (a b c : Bytes) : Channel :=
  { cmd := cmd, a := a, b := b, c := c, busy := true, resultValid := false, status := 0x00, info := 0x00, out := [] }

/-- R32: the channel after its result has been collected. -/
def Channel.collected (ch : Channel) : Channel :=
  { ch with out := [], status := 0x00, info := 0x00, resultValid := false }

/-- R32, R33: COLLECT on channel k, which holds `ch` and is not busy: the triple is returned and cleared; where no result
waits, the channel is unchanged and the host is handed its fault. -/
def collect (k : Nat) (ch : Channel) (s : State) : State :=
  if ch.resultValid then (s.setChannel k ch.collected).hand (.collected k ch.status ch.info ch.out)
  else s.hand (.fault k .collectNothingPending)

/-- R340: RESET, on every channel at once. It touches no parameter (R341), nothing of the entropy source (R342), and nothing
the host already holds. -/
def resetBlock (s : State) : State := { s with channels := s.channels.map fun _ => Channel.reset }

/-- The lowest-numbered channel with `BUSY` = 1. -/
def firstBusy (s : State) : Option Nat := s.channels.findIdx? (·.busy)

end Sys2Proof.Machine
end

