-- ==== Sys2Proof/Machine/Bytes.lean ====
section
/-! DEFINITION. Byte strings and words: substrings (R10), ⊕ of byte strings (R11), big-endian conversion (R12). -/

namespace Sys2Proof.Machine

/-- R11: byte-wise ⊕. -/
def xorBytes (x y : Bytes) : Bytes := List.zipWith (fun p q => p ^^^ q) x y

/-- R10: `s[n·i .. n·(i+1))`, the i-th piece of n bytes (i counted from 0). -/
def piece (n : Nat) (s : Bytes) (i : Nat) : Bytes := (s.drop (n * i)).take n

/-- R12: `BE32`, `BE64`: the word whose bytes these are, most significant first. -/
def beWord (w : Nat) (s : Bytes) : BitVec w := BitVec.ofNat w (s.foldl (fun acc x => acc * 256 + x.toNat) 0)

/-- R12: `bytesBE_n(v)`, the n-byte string of v, most significant byte first. -/
def bytesBE (n v : Nat) : Bytes := (List.range n).map fun i => BitVec.ofNat 8 (v / 256 ^ (n - 1 - i))

/-- R103, R121: `zeros(k)`. -/
def zeros (k : Nat) : Bytes := List.replicate k 0x00

end Sys2Proof.Machine
end

