-- ==== Sys2Proof/Machine/Sha2.lean ====
section
/-! DEFINITION. `sha256_core` and `sha512_core` (R100 to R108, R120 to R127). The two share their shape: padding, schedule and
compression are written once over the word width, and each function supplies its own Σ, σ, constants and initial value. -/

namespace Sys2Proof.Machine

/-- R101, R122: `Ch`. -/
def shaCh {w : Nat} (x y z : BitVec w) : BitVec w := (x &&& y) ^^^ (~~~x &&& z)

/-- R101, R122: `Maj`. -/
def shaMaj {w : Nat} (x y z : BitVec w) : BitVec w := (x &&& y) ^^^ (x &&& z) ^^^ (y &&& z)

/-- R101: `Σ0`. -/
def sha256BigSigma0 (x : BitVec 32) : BitVec 32 := x.rotateRight 2 ^^^ x.rotateRight 13 ^^^ x.rotateRight 22

/-- R101: `Σ1`. -/
def sha256BigSigma1 (x : BitVec 32) : BitVec 32 := x.rotateRight 6 ^^^ x.rotateRight 11 ^^^ x.rotateRight 25

/-- R101: `σ0`. -/
def sha256SmallSigma0 (x : BitVec 32) : BitVec 32 := x.rotateRight 7 ^^^ x.rotateRight 18 ^^^ (x >>> 3)

/-- R101: `σ1`. -/
def sha256SmallSigma1 (x : BitVec 32) : BitVec 32 := x.rotateRight 17 ^^^ x.rotateRight 19 ^^^ (x >>> 10)

/-- R122: `Σ0`. -/
def sha512BigSigma0 (x : BitVec 64) : BitVec 64 := x.rotateRight 28 ^^^ x.rotateRight 34 ^^^ x.rotateRight 39

/-- R122: `Σ1`. -/
def sha512BigSigma1 (x : BitVec 64) : BitVec 64 := x.rotateRight 14 ^^^ x.rotateRight 18 ^^^ x.rotateRight 41

/-- R122: `σ0`. -/
def sha512SmallSigma0 (x : BitVec 64) : BitVec 64 := x.rotateRight 1 ^^^ x.rotateRight 8 ^^^ (x >>> 7)

/-- R122: `σ1`. -/
def sha512SmallSigma1 (x : BitVec 64) : BitVec 64 := x.rotateRight 19 ^^^ x.rotateRight 61 ^^^ (x >>> 6)

/-- R102: the round constants K0 to K63. -/
def sha256K : List (BitVec 32) :=
  [0x428a2f98, 0x71374491, 0xb5c0fbcf, 0xe9b5dba5, 0x3956c25b, 0x59f111f1, 0x923f82a4, 0xab1c5ed5] ++
  [0xd807aa98, 0x12835b01, 0x243185be, 0x550c7dc3, 0x72be5d74, 0x80deb1fe, 0x9bdc06a7, 0xc19bf174] ++
  [0xe49b69c1, 0xefbe4786, 0x0fc19dc6, 0x240ca1cc, 0x2de92c6f, 0x4a7484aa, 0x5cb0a9dc, 0x76f988da] ++
  [0x983e5152, 0xa831c66d, 0xb00327c8, 0xbf597fc7, 0xc6e00bf3, 0xd5a79147, 0x06ca6351, 0x14292967] ++
  [0x27b70a85, 0x2e1b2138, 0x4d2c6dfc, 0x53380d13, 0x650a7354, 0x766a0abb, 0x81c2c92e, 0x92722c85] ++
  [0xa2bfe8a1, 0xa81a664b, 0xc24b8b70, 0xc76c51a3, 0xd192e819, 0xd6990624, 0xf40e3585, 0x106aa070] ++
  [0x19a4c116, 0x1e376c08, 0x2748774c, 0x34b0bcb5, 0x391c0cb3, 0x4ed8aa4a, 0x5b9cca4f, 0x682e6ff3] ++
  [0x748f82ee, 0x78a5636f, 0x84c87814, 0x8cc70208, 0x90befffa, 0xa4506ceb, 0xbef9a3f7, 0xc67178f2]

/-- R123: the round constants K0 to K79. -/
def sha512K : List (BitVec 64) :=
  [0x428a2f98d728ae22, 0x7137449123ef65cd, 0xb5c0fbcfec4d3b2f, 0xe9b5dba58189dbbc] ++
  [0x3956c25bf348b538, 0x59f111f1b605d019, 0x923f82a4af194f9b, 0xab1c5ed5da6d8118] ++
  [0xd807aa98a3030242, 0x12835b0145706fbe, 0x243185be4ee4b28c, 0x550c7dc3d5ffb4e2] ++
  [0x72be5d74f27b896f, 0x80deb1fe3b1696b1, 0x9bdc06a725c71235, 0xc19bf174cf692694] ++
  [0xe49b69c19ef14ad2, 0xefbe4786384f25e3, 0x0fc19dc68b8cd5b5, 0x240ca1cc77ac9c65] ++
  [0x2de92c6f592b0275, 0x4a7484aa6ea6e483, 0x5cb0a9dcbd41fbd4, 0x76f988da831153b5] ++
  [0x983e5152ee66dfab, 0xa831c66d2db43210, 0xb00327c898fb213f, 0xbf597fc7beef0ee4] ++
  [0xc6e00bf33da88fc2, 0xd5a79147930aa725, 0x06ca6351e003826f, 0x142929670a0e6e70] ++
  [0x27b70a8546d22ffc, 0x2e1b21385c26c926, 0x4d2c6dfc5ac42aed, 0x53380d139d95b3df] ++
  [0x650a73548baf63de, 0x766a0abb3c77b2a8, 0x81c2c92e47edaee6, 0x92722c851482353b] ++
  [0xa2bfe8a14cf10364, 0xa81a664bbc423001, 0xc24b8b70d0f89791, 0xc76c51a30654be30] ++
  [0xd192e819d6ef5218, 0xd69906245565a910, 0xf40e35855771202a, 0x106aa07032bbd1b8] ++
  [0x19a4c116b8d2d0c8, 0x1e376c085141ab53, 0x2748774cdf8eeb99, 0x34b0bcb5e19b48a8] ++
  [0x391c0cb3c5c95a63, 0x4ed8aa4ae3418acb, 0x5b9cca4f7763e373, 0x682e6ff3d6b2b8a3] ++
  [0x748f82ee5defb2fc, 0x78a5636f43172f60, 0x84c87814a1f0ab72, 0x8cc702081a6439ec] ++
  [0x90befffa23631e28, 0xa4506cebde82bde9, 0xbef9a3f7b2c67915, 0xc67178f2e372532b] ++
  [0xca273eceea26619c, 0xd186b8c721c0c207, 0xeada7dd6cde0eb1e, 0xf57d4f7fee6ed178] ++
  [0x06f067aa72176fba, 0x0a637dc5a2c898a6, 0x113f9804bef90dae, 0x1b710b35131c471b] ++
  [0x28db77f523047d84, 0x32caab7b40c72493, 0x3c9ebe0a15c9bebc, 0x431d67c49c100d4c] ++
  [0x4cc5d4becb3e42b6, 0x597f299cfc657e2a, 0x5fcb6fab3ad6faec, 0x6c44198c4a475817]

/-- R103, R121: the eight words of a chaining value, and the working words a to h of a compression. -/
structure ShaWords (w : Nat) where
  a : BitVec w
  b : BitVec w
  c : BitVec w
  d : BitVec w
  e : BitVec w
  f : BitVec w
  g : BitVec w
  h : BitVec w
  deriving DecidableEq, Repr

/-- R105: the initial hash value. -/
def sha256Initial : ShaWords 32 :=
  ⟨0x6a09e667, 0xbb67ae85, 0x3c6ef372, 0xa54ff53a, 0x510e527f, 0x9b05688c, 0x1f83d9ab, 0x5be0cd19⟩

/-- R124: the initial hash value. -/
def sha512Initial : ShaWords 64 :=
  ⟨0x6a09e667f3bcc908, 0xbb67ae8584caa73b, 0x3c6ef372fe94f82b, 0xa54ff53a5f1d36f1,
    0x510e527fade682d1, 0x9b05688c2b3e6c1f, 0x1f83d9abfb41bd6b, 0x5be0cd19137e2179⟩

/-- R103, R121: the least k ≥ 0 with (len + 1 + k) mod block = block − lenBytes, the zeros of a padding to blocks of `block`
bytes whose last `lenBytes` bytes hold the message length. -/
def shaZeroCount (block lenBytes len : Nat) : Nat := (2 * block - 1 - lenBytes - len % block) % block

/-- R103, R121: `M ‖ h"80" ‖ zeros(k) ‖ bytesBE(8·|M|)`. -/
def shaPad (block lenBytes : Nat) (m : Bytes) : Bytes :=
  m ++ [0x80] ++ zeros (shaZeroCount block lenBytes m.length) ++ bytesBE lenBytes (8 * m.length)

/-- R103: `Pad256`. -/
def pad256 (m : Bytes) : Bytes := shaPad 64 8 m

/-- R121: `Pad512`. -/
def pad512 (m : Bytes) : Bytes := shaPad 128 16 m

/-- R104, R121: the 16 words of block i (counted from 0) of a padded message, each of `n` bytes. -/
def shaBlockWords (w n : Nat) (padded : Bytes) (i : Nat) : List (BitVec w) :=
  (List.range 16).map fun j => beWord w (piece n (piece (16 * n) padded i) j)

/-- R106, R125: `count` more words of the schedule, each from the words before it. -/
def shaExtend {w : Nat} (small0 small1 : BitVec w → BitVec w) : Nat → List (BitVec w) → List (BitVec w)
  | 0, ws => ws
  | count + 1, ws =>
    let t := ws.length
    shaExtend small0 small1 count
      (ws ++ [small1 (ws.getD (t - 2) 0) + ws.getD (t - 7) 0 + small0 (ws.getD (t - 15) 0) + ws.getD (t - 16) 0])

/-- R107, R126: one turn of the compression loop, on (K_t, W_t). -/
def shaRound {w : Nat} (big0 big1 : BitVec w → BitVec w) (v : ShaWords w) (kw : BitVec w × BitVec w) : ShaWords w :=
  let t1 := v.h + big1 v.e + shaCh v.e v.f v.g + kw.1 + kw.2
  let t2 := big0 v.a + shaMaj v.a v.b v.c
  { a := t1 + t2, b := v.a, c := v.b, d := v.c, e := v.d + t1, f := v.e, g := v.f, h := v.g }

/-- R107: the word-wise sum that ends a compression. -/
def ShaWords.add {w : Nat} (x y : ShaWords w) : ShaWords w :=
  { a := x.a + y.a, b := x.b + y.b, c := x.c + y.c, d := x.d + y.d,
    e := x.e + y.e, f := x.f + y.f, g := x.g + y.g, h := x.h + y.h }

/-- R106, R107: H(i) from H(i−1) and the 16 words of block i, for SHA-256. -/
def sha256Compress (h : ShaWords 32) (block : List (BitVec 32)) : ShaWords 32 :=
  let schedule := shaExtend sha256SmallSigma0 sha256SmallSigma1 48 block
  ShaWords.add ((sha256K.zip schedule).foldl (shaRound sha256BigSigma0 sha256BigSigma1) h) h

/-- R125, R126: H(i) from H(i−1) and the 16 words of block i, for SHA-512. -/
def sha512Compress (h : ShaWords 64) (block : List (BitVec 64)) : ShaWords 64 :=
  let schedule := shaExtend sha512SmallSigma0 sha512SmallSigma1 64 block
  ShaWords.add ((sha512K.zip schedule).foldl (shaRound sha512BigSigma0 sha512BigSigma1) h) h

/-- R108, R127: the eight words, each as its n bytes, H0 first. -/
def ShaWords.toBytes {w : Nat} (n : Nat) (x : ShaWords w) : Bytes :=
  [x.a, x.b, x.c, x.d, x.e, x.f, x.g, x.h].flatMap fun v => bytesBE n v.toNat

/-- R100, R104, R107, R108: `SHA256(M)`. -/
def sha256 (m : Bytes) : Bytes :=
  let padded := pad256 m
  ((List.range (padded.length / 64)).foldl
    (fun h i => sha256Compress h (shaBlockWords 32 4 padded i)) sha256Initial).toBytes 4

/-- R120, R121, R126, R127: `SHA512(M)`. -/
def sha512 (m : Bytes) : Bytes :=
  let padded := pad512 m
  ((List.range (padded.length / 128)).foldl
    (fun h i => sha512Compress h (shaBlockWords 64 8 padded i)) sha512Initial).toBytes 8

end Sys2Proof.Machine
end

