-- ==== Sys2Proof/Machine/Digest.lean ====
section
/-! DEFINITION. The digest commands (R130, R131). -/

namespace Sys2Proof.Machine

/-- R130: `CmdDigest256(A)`. -/
def cmdDigest256 (a : Bytes) : Except CommandError Bytes := do
  requireNonEmpty .a a
  .ok (sha256 a)

/-- R131: `CmdDigest512(A)`. -/
def cmdDigest512 (a : Bytes) : Except CommandError Bytes := do
  requireNonEmpty .a a
  .ok (sha512 a)

/-- R80 step 3, R130: DIGEST.SHA256. -/
def runDigestSha256 (p : Params) (a b c : Bytes) : Except CommandError Bytes := do
  checkSizes p a b c (reads .digestSha256)
  cmdDigest256 a

/-- R80 step 3, R131: DIGEST.SHA512. -/
def runDigestSha512 (p : Params) (a b c : Bytes) : Except CommandError Bytes := do
  checkSizes p a b c (reads .digestSha512)
  cmdDigest512 a

/-- R130: the EXECUTE step of DIGEST.SHA256. -/
def execDigestSha256 (s : State) : Host.Outcome State Fault Refusal := complete (runDigestSha256 Config.params) s

/-- R131: the EXECUTE step of DIGEST.SHA512. -/
def execDigestSha512 (s : State) : Host.Outcome State Fault Refusal := complete (runDigestSha512 Config.params) s

end Sys2Proof.Machine
end

