-- ==== Sys2Proof/Machine/KeyDerivation.lean ====
section
/-! DEFINITION. `key_derivation_stage` (R150 to R153) and the key derivation command (R160). -/

namespace Sys2Proof.Machine

/-- R151: the salt after substitution of the default for an empty one. -/
def effectiveSalt (p : Params) (salt : Bytes) : Bytes := if salt.length = 0 then p.defaultSalt else salt

/-- R150: `KDF(phrase, salt)`. One pass of SHA-256 (R153). -/
def kdf (p : Params) (phrase salt : Bytes) : Bytes := sha256 (phrase ++ effectiveSalt p salt)

/-- R160: `CmdDeriveKey(B, C)`. -/
def cmdDeriveKey (p : Params) (b c : Bytes) : Except CommandError Bytes := do
  requireNonEmpty .b b
  .ok (kdf p b c)

/-- R80 step 3, R160: DERIVE_KEY.AES256. -/
def runDeriveKeyAes256 (p : Params) (a b c : Bytes) : Except CommandError Bytes := do
  checkSizes p a b c (reads .deriveKeyAes256)
  cmdDeriveKey p b c

/-- R160: the EXECUTE step of DERIVE_KEY.AES256. -/
def execDeriveKeyAes256 (s : State) : Host.Outcome State Fault Refusal := complete (runDeriveKeyAes256 Config.params) s

end Sys2Proof.Machine
end

