-- ==== Sys2Proof/Machine/Aes.lean ====
section
/-! DEFINITION. The AES block cipher and `aes_key_expand` (R170 to R191). The 4×4 state is held as the 16 bytes it is loaded
from: s[r][c] is byte r + 4·c (R172), so that load and store are the identity. -/

namespace Sys2Proof.Machine

/-- R170: `xtime(b)`. -/
def xtime (b : Byte) : Byte := if b.msb then (b <<< 1) ^^^ 0x1b else b <<< 1

/-- R170: `b • x^n`, that is n times `xtime`. -/
def xtimes : Nat → Byte → Byte
  | 0, b => b
  | n + 1, b => xtime (xtimes n b)

/-- R170: `x • y`: the sum of the `y • x^i` over the bits i of x. -/
def gfMul (x y : Byte) : Byte :=
  (List.range 8).foldl (fun acc i => if x.getLsbD i then acc ^^^ xtimes i y else acc) 0

/-- R173: the affine map A of the S-box. -/
def sboxAffine (x : Byte) : Byte :=
  x ^^^ x.rotateLeft 1 ^^^ x.rotateLeft 2 ^^^ x.rotateLeft 3 ^^^ x.rotateLeft 4 ^^^ 0x63

/-- R173: row h of the table holds SBOX at the bytes of high nibble h. -/
def sboxTable : List Byte :=
  [0x63, 0x7c, 0x77, 0x7b, 0xf2, 0x6b, 0x6f, 0xc5, 0x30, 0x01, 0x67, 0x2b, 0xfe, 0xd7, 0xab, 0x76] ++
  [0xca, 0x82, 0xc9, 0x7d, 0xfa, 0x59, 0x47, 0xf0, 0xad, 0xd4, 0xa2, 0xaf, 0x9c, 0xa4, 0x72, 0xc0] ++
  [0xb7, 0xfd, 0x93, 0x26, 0x36, 0x3f, 0xf7, 0xcc, 0x34, 0xa5, 0xe5, 0xf1, 0x71, 0xd8, 0x31, 0x15] ++
  [0x04, 0xc7, 0x23, 0xc3, 0x18, 0x96, 0x05, 0x9a, 0x07, 0x12, 0x80, 0xe2, 0xeb, 0x27, 0xb2, 0x75] ++
  [0x09, 0x83, 0x2c, 0x1a, 0x1b, 0x6e, 0x5a, 0xa0, 0x52, 0x3b, 0xd6, 0xb3, 0x29, 0xe3, 0x2f, 0x84] ++
  [0x53, 0xd1, 0x00, 0xed, 0x20, 0xfc, 0xb1, 0x5b, 0x6a, 0xcb, 0xbe, 0x39, 0x4a, 0x4c, 0x58, 0xcf] ++
  [0xd0, 0xef, 0xaa, 0xfb, 0x43, 0x4d, 0x33, 0x85, 0x45, 0xf9, 0x02, 0x7f, 0x50, 0x3c, 0x9f, 0xa8] ++
  [0x51, 0xa3, 0x40, 0x8f, 0x92, 0x9d, 0x38, 0xf5, 0xbc, 0xb6, 0xda, 0x21, 0x10, 0xff, 0xf3, 0xd2] ++
  [0xcd, 0x0c, 0x13, 0xec, 0x5f, 0x97, 0x44, 0x17, 0xc4, 0xa7, 0x7e, 0x3d, 0x64, 0x5d, 0x19, 0x73] ++
  [0x60, 0x81, 0x4f, 0xdc, 0x22, 0x2a, 0x90, 0x88, 0x46, 0xee, 0xb8, 0x14, 0xde, 0x5e, 0x0b, 0xdb] ++
  [0xe0, 0x32, 0x3a, 0x0a, 0x49, 0x06, 0x24, 0x5c, 0xc2, 0xd3, 0xac, 0x62, 0x91, 0x95, 0xe4, 0x79] ++
  [0xe7, 0xc8, 0x37, 0x6d, 0x8d, 0xd5, 0x4e, 0xa9, 0x6c, 0x56, 0xf4, 0xea, 0x65, 0x7a, 0xae, 0x08] ++
  [0xba, 0x78, 0x25, 0x2e, 0x1c, 0xa6, 0xb4, 0xc6, 0xe8, 0xdd, 0x74, 0x1f, 0x4b, 0xbd, 0x8b, 0x8a] ++
  [0x70, 0x3e, 0xb5, 0x66, 0x48, 0x03, 0xf6, 0x0e, 0x61, 0x35, 0x57, 0xb9, 0x86, 0xc1, 0x1d, 0x9e] ++
  [0xe1, 0xf8, 0x98, 0x11, 0x69, 0xd9, 0x8e, 0x94, 0x9b, 0x1e, 0x87, 0xe9, 0xce, 0x55, 0x28, 0xdf] ++
  [0x8c, 0xa1, 0x89, 0x0d, 0xbf, 0xe6, 0x42, 0x68, 0x41, 0x99, 0x2d, 0x0f, 0xb0, 0x54, 0xbb, 0x16]

/-- R174: row h of the table holds INV_SBOX at the bytes of high nibble h. -/
def invSboxTable : List Byte :=
  [0x52, 0x09, 0x6a, 0xd5, 0x30, 0x36, 0xa5, 0x38, 0xbf, 0x40, 0xa3, 0x9e, 0x81, 0xf3, 0xd7, 0xfb] ++
  [0x7c, 0xe3, 0x39, 0x82, 0x9b, 0x2f, 0xff, 0x87, 0x34, 0x8e, 0x43, 0x44, 0xc4, 0xde, 0xe9, 0xcb] ++
  [0x54, 0x7b, 0x94, 0x32, 0xa6, 0xc2, 0x23, 0x3d, 0xee, 0x4c, 0x95, 0x0b, 0x42, 0xfa, 0xc3, 0x4e] ++
  [0x08, 0x2e, 0xa1, 0x66, 0x28, 0xd9, 0x24, 0xb2, 0x76, 0x5b, 0xa2, 0x49, 0x6d, 0x8b, 0xd1, 0x25] ++
  [0x72, 0xf8, 0xf6, 0x64, 0x86, 0x68, 0x98, 0x16, 0xd4, 0xa4, 0x5c, 0xcc, 0x5d, 0x65, 0xb6, 0x92] ++
  [0x6c, 0x70, 0x48, 0x50, 0xfd, 0xed, 0xb9, 0xda, 0x5e, 0x15, 0x46, 0x57, 0xa7, 0x8d, 0x9d, 0x84] ++
  [0x90, 0xd8, 0xab, 0x00, 0x8c, 0xbc, 0xd3, 0x0a, 0xf7, 0xe4, 0x58, 0x05, 0xb8, 0xb3, 0x45, 0x06] ++
  [0xd0, 0x2c, 0x1e, 0x8f, 0xca, 0x3f, 0x0f, 0x02, 0xc1, 0xaf, 0xbd, 0x03, 0x01, 0x13, 0x8a, 0x6b] ++
  [0x3a, 0x91, 0x11, 0x41, 0x4f, 0x67, 0xdc, 0xea, 0x97, 0xf2, 0xcf, 0xce, 0xf0, 0xb4, 0xe6, 0x73] ++
  [0x96, 0xac, 0x74, 0x22, 0xe7, 0xad, 0x35, 0x85, 0xe2, 0xf9, 0x37, 0xe8, 0x1c, 0x75, 0xdf, 0x6e] ++
  [0x47, 0xf1, 0x1a, 0x71, 0x1d, 0x29, 0xc5, 0x89, 0x6f, 0xb7, 0x62, 0x0e, 0xaa, 0x18, 0xbe, 0x1b] ++
  [0xfc, 0x56, 0x3e, 0x4b, 0xc6, 0xd2, 0x79, 0x20, 0x9a, 0xdb, 0xc0, 0xfe, 0x78, 0xcd, 0x5a, 0xf4] ++
  [0x1f, 0xdd, 0xa8, 0x33, 0x88, 0x07, 0xc7, 0x31, 0xb1, 0x12, 0x10, 0x59, 0x27, 0x80, 0xec, 0x5f] ++
  [0x60, 0x51, 0x7f, 0xa9, 0x19, 0xb5, 0x4a, 0x0d, 0x2d, 0xe5, 0x7a, 0x9f, 0x93, 0xc9, 0x9c, 0xef] ++
  [0xa0, 0xe0, 0x3b, 0x4d, 0xae, 0x2a, 0xf5, 0xb0, 0xc8, 0xeb, 0xbb, 0x3c, 0x83, 0x53, 0x99, 0x61] ++
  [0x17, 0x2b, 0x04, 0x7e, 0xba, 0x77, 0xd6, 0x26, 0xe1, 0x69, 0x14, 0x63, 0x55, 0x21, 0x0c, 0x7d]

/-- R173: `SBOX(b)`. -/
def sbox (b : Byte) : Byte := sboxTable.getD b.toNat 0

/-- R174: `INV_SBOX(b)`. -/
def invSbox (b : Byte) : Byte := invSboxTable.getD b.toNat 0

/-- R172: s[r][c]. -/
def cell (s : Bytes) (r c : Nat) : Byte := s.getD (r + 4 * c) 0

/-- R172: the state with the given s[r][c]. -/
def ofCells (f : (r c : Nat) → Byte) : Bytes := (List.range 16).map fun i => f (i % 4) (i / 4)

/-- R175: `SubBytes`. -/
def subBytes (s : Bytes) : Bytes := s.map sbox

/-- R175: `InvSubBytes`. -/
def invSubBytes (s : Bytes) : Bytes := s.map invSbox

/-- R176: `ShiftRows`. -/
def shiftRows (s : Bytes) : Bytes := ofCells fun r c => cell s r ((c + r) % 4)

/-- R176: `InvShiftRows`. -/
def invShiftRows (s : Bytes) : Bytes := ofCells fun r c => cell s r ((c + 4 - r) % 4)

/-- R177: a column after `MixColumns`. -/
def mixColumn (s0 s1 s2 s3 : Byte) : Bytes :=
  [gfMul 0x02 s0 ^^^ gfMul 0x03 s1 ^^^ s2 ^^^ s3,
    s0 ^^^ gfMul 0x02 s1 ^^^ gfMul 0x03 s2 ^^^ s3,
    s0 ^^^ s1 ^^^ gfMul 0x02 s2 ^^^ gfMul 0x03 s3,
    gfMul 0x03 s0 ^^^ s1 ^^^ s2 ^^^ gfMul 0x02 s3]

/-- R178: a column after `InvMixColumns`. -/
def invMixColumn (s0 s1 s2 s3 : Byte) : Bytes :=
  [gfMul 0x0e s0 ^^^ gfMul 0x0b s1 ^^^ gfMul 0x0d s2 ^^^ gfMul 0x09 s3,
    gfMul 0x09 s0 ^^^ gfMul 0x0e s1 ^^^ gfMul 0x0b s2 ^^^ gfMul 0x0d s3,
    gfMul 0x0d s0 ^^^ gfMul 0x09 s1 ^^^ gfMul 0x0e s2 ^^^ gfMul 0x0b s3,
    gfMul 0x0b s0 ^^^ gfMul 0x0d s1 ^^^ gfMul 0x09 s2 ^^^ gfMul 0x0e s3]

/-- R177, R178: each column c of the state replaced by a function of its four bytes. -/
def mapColumns (f : (s0 s1 s2 s3 : Byte) → Bytes) (s : Bytes) : Bytes :=
  (List.range 4).flatMap fun c => f (cell s 0 c) (cell s 1 c) (cell s 2 c) (cell s 3 c)

/-- R177: `MixColumns`. -/
def mixColumns (s : Bytes) : Bytes := mapColumns mixColumn s

/-- R178: `InvMixColumns`. -/
def invMixColumns (s : Bytes) : Bytes := mapColumns invMixColumn s

/-- R179: `AddRoundKey(round)` under the round-key words w, each of 4 bytes. -/
def addRoundKey (w : List Bytes) (round : Nat) (s : Bytes) : Bytes :=
  ofCells fun r c => cell s r c ^^^ (w.getD (4 * round + c) []).getD r 0

/-- R180: `Rcon[j]`, for j ≥ 1. -/
def rcon (j : Nat) : Bytes := [xtimes (j - 1) 0x01, 0x00, 0x00, 0x00]

/-- R181: `RotWord`. -/
def rotWord (x : Bytes) : Bytes := x.drop 1 ++ x.take 1

/-- R181: `SubWord`. -/
def subWord (x : Bytes) : Bytes := x.map sbox

/-- R171: Nk, the number of key words. -/
def keyWords (k : Bytes) : Nat := k.length / 4

/-- R171: Nr: 10, 12 or 14 rounds for Nk = 4, 6 or 8. -/
def keyRounds (k : Bytes) : Nat := keyWords k + 6

/-- R182: w[i] from the words before it, i being their number. -/
def nextKeyWord (nk : Nat) (w : List Bytes) : Bytes :=
  let i := w.length
  let temp := w.getD (i - 1) []
  let temp :=
    if i % nk = 0 then xorBytes (subWord (rotWord temp)) (rcon (i / nk))
    else if nk = 8 ∧ i % 8 = 4 then subWord temp
    else temp
  xorBytes (w.getD (i - nk) []) temp

/-- R182: `count` more round-key words. -/
def extendKeyWords (nk : Nat) : Nat → List Bytes → List Bytes
  | 0, w => w
  | count + 1, w => extendKeyWords nk count (w ++ [nextKeyWord nk w])

/-- R182: `KeyExpansion(K)`: the first Nk words are the key's, and the last is w[4·(Nr+1)−1]. -/
def keyExpansion (k : Bytes) : List Bytes :=
  extendKeyWords (keyWords k) (4 * (keyRounds k + 1) - keyWords k) ((List.range (keyWords k)).map (piece 4 k))

/-- R171, R190: Nr of the round-key words. -/
def roundsOf (w : List Bytes) : Nat := w.length / 4 - 1

/-- R190: one inner round. -/
def encryptRound (w : List Bytes) (s : Bytes) (round : Nat) : Bytes :=
  addRoundKey w round (mixColumns (shiftRows (subBytes s)))

/-- R190: `AES_Encrypt(in, w)`. -/
def aesEncrypt (x : Bytes) (w : List Bytes) : Bytes :=
  let nr := roundsOf w
  let s := ((List.range (nr - 1)).map (· + 1)).foldl (encryptRound w) (addRoundKey w 0 x)
  addRoundKey w nr (shiftRows (subBytes s))

/-- R191: one inner round of the inverse cipher. -/
def decryptRound (w : List Bytes) (s : Bytes) (round : Nat) : Bytes :=
  invMixColumns (addRoundKey w round (invSubBytes (invShiftRows s)))

/-- R191: `AES_Decrypt(in, w)`; the rounds run from Nr−1 down to 1. -/
def aesDecrypt (x : Bytes) (w : List Bytes) : Bytes :=
  let nr := roundsOf w
  let s := ((List.range (nr - 1)).map (· + 1)).reverse.foldl (decryptRound w) (addRoundKey w nr x)
  addRoundKey w 0 (invSubBytes (invShiftRows s))

end Sys2Proof.Machine
end

