-- ==== Sys2Proof/Machine/Cbc.lean ====
section
/-! DEFINITION. CBC mode (R220, R221), PKCS7 padding (R230 to R232), IV prepend and envelope split (R234, R235). -/

namespace Sys2Proof.Machine

/-- R220, R221: the 16-byte blocks of a string whose length is a multiple of 16. -/
def blocks16 (s : Bytes) : List Bytes := (List.range (s.length / 16)).map (piece 16 s)

/-- R220: the loop of `CBC_Encrypt`: C_i is the encryption of P_i ⊕ chain, and the next chain. -/
def cbcEncryptBlocks (w : List Bytes) : (chain : Bytes) → List Bytes → List Bytes
  | _, [] => []
  | chain, p :: ps =>
    let c := aesEncrypt (xorBytes p chain) w
    c :: cbcEncryptBlocks w c ps

/-- R221: the loop of `CBC_Decrypt`: P_i is the decryption of C_i ⊕ chain, and C_i the next chain. -/
def cbcDecryptBlocks (w : List Bytes) : (chain : Bytes) → List Bytes → List Bytes
  | _, [] => []
  | chain, c :: cs => xorBytes (aesDecrypt c w) chain :: cbcDecryptBlocks w c cs

/-- R220: `CBC_Encrypt(P, K, IV)`. -/
def cbcEncrypt (p k iv : Bytes) : Bytes := (cbcEncryptBlocks (keyExpansion k) iv (blocks16 p)).flatten

/-- R221: `CBC_Decrypt(C, K, IV)`. -/
def cbcDecrypt (c k iv : Bytes) : Bytes := (cbcDecryptBlocks (keyExpansion k) iv (blocks16 c)).flatten

/-- R230: the number of padding bytes. -/
def padCount (len : Nat) : Nat := 16 - len % 16

/-- R230: `Pad(D)`. -/
def pkcs7PadBytes (d : Bytes) : Bytes := d ++ List.replicate (padCount d.length) (BitVec.ofNat 8 (padCount d.length))

/-- R231: `paddedLength(L)`. -/
def paddedLength (len : Nat) : Nat := 16 * (len / 16 + 1)

/-- R232: `Unpad(X)`; `none` is PAD_FAIL. All p padding bytes are checked (D15). -/
def pkcs7UnpadBytes (x : Bytes) : Option Bytes :=
  let len := x.length
  let p := (x.getD (len - 1) 0).toNat
  if p < 1 ∨ 16 < p then none
  else if (x.drop (len - p)).all (fun b => b.toNat == p) then some (x.take (len - p))
  else none

/-- R234: `IVPrepend(IV, Cb)`. -/
def ivPrependBytes (iv cb : Bytes) : Bytes := iv ++ cb

/-- R235: `SplitEnvelope(E)`. -/
def splitEnvelope (e : Bytes) : Bytes × Bytes := (e.take 16, e.drop 16)

end Sys2Proof.Machine
end

