-- ==== Sys2Proof/Machine/Stages.lean ====
section
/-! DEFINITION. The stage commands (R200, R240 to R244). -/

namespace Sys2Proof.Machine

/-- R200: `CmdKeyExpand(B)`. -/
def cmdKeyExpand (b : Bytes) : Except CommandError Bytes := do
  requireRawKey b
  .ok (keyExpansion b).flatten

/-- R240, R241: the checks on A, B and C of the two CBC stage commands, in order. -/
def checkCbcOperands (a b c : Bytes) : Except CommandError Unit := do
  requireWholeBlocks a
  requireRawKey b
  requireIv c

/-- R240: `CmdCbcEncrypt(A, B, C)`. -/
def cmdCbcEncrypt (a b c : Bytes) : Except CommandError Bytes := do
  checkCbcOperands a b c
  .ok (cbcEncrypt a b c)

/-- R241: `CmdCbcDecrypt(A, B, C)`. -/
def cmdCbcDecrypt (a b c : Bytes) : Except CommandError Bytes := do
  checkCbcOperands a b c
  .ok (cbcDecrypt a b c)

/-- R242: `CmdPad(A)`. -/
def cmdPad (a : Bytes) : Except CommandError Bytes := .ok (pkcs7PadBytes a)

/-- R232, R243: PAD_FAIL becomes `DECRYPTION_FAILURE`. -/
def unpadResult (x : Bytes) : Except CommandError Bytes :=
  match pkcs7UnpadBytes x with
  | some r => .ok r
  | none => .error .decryptionFailure

/-- R243: `CmdUnpad(A)`. -/
def cmdUnpad (a : Bytes) : Except CommandError Bytes := do
  requireWholeBlocks a
  unpadResult a

/-- R244: `CmdIvPrepend(A, C)`. -/
def cmdIvPrepend (a c : Bytes) : Except CommandError Bytes := do
  requireIv c
  .ok (ivPrependBytes c a)

/-- R80 step 3, R200: AES_KEY_EXPAND. -/
def runAesKeyExpand (p : Params) (a b c : Bytes) : Except CommandError Bytes := do
  checkSizes p a b c (reads .aesKeyExpand)
  cmdKeyExpand b

/-- R80 step 3, R240: AES_CBC_ENCRYPT. -/
def runAesCbcEncrypt (p : Params) (a b c : Bytes) : Except CommandError Bytes := do
  checkSizes p a b c (reads .aesCbcEncrypt)
  cmdCbcEncrypt a b c

/-- R80 step 3, R241: AES_CBC_DECRYPT. -/
def runAesCbcDecrypt (p : Params) (a b c : Bytes) : Except CommandError Bytes := do
  checkSizes p a b c (reads .aesCbcDecrypt)
  cmdCbcDecrypt a b c

/-- R80 step 3, R242: PKCS7_PAD. -/
def runPkcs7Pad (p : Params) (a b c : Bytes) : Except CommandError Bytes := do
  checkSizes p a b c (reads .pkcs7Pad)
  cmdPad a

/-- R80 step 3, R243: PKCS7_UNPAD. -/
def runPkcs7Unpad (p : Params) (a b c : Bytes) : Except CommandError Bytes := do
  checkSizes p a b c (reads .pkcs7Unpad)
  cmdUnpad a

/-- R80 step 3, R244: IV_PREPEND. -/
def runIvPrepend (p : Params) (a b c : Bytes) : Except CommandError Bytes := do
  checkSizes p a b c (reads .ivPrepend)
  cmdIvPrepend a c

/-- R200: the EXECUTE step of AES_KEY_EXPAND. -/
def execAesKeyExpand (s : State) : Host.Outcome State Fault Refusal := complete (runAesKeyExpand Config.params) s

/-- R240: the EXECUTE step of AES_CBC_ENCRYPT. -/
def execAesCbcEncrypt (s : State) : Host.Outcome State Fault Refusal := complete (runAesCbcEncrypt Config.params) s

/-- R241: the EXECUTE step of AES_CBC_DECRYPT. -/
def execAesCbcDecrypt (s : State) : Host.Outcome State Fault Refusal := complete (runAesCbcDecrypt Config.params) s

/-- R242: the EXECUTE step of PKCS7_PAD. -/
def execPkcs7Pad (s : State) : Host.Outcome State Fault Refusal := complete (runPkcs7Pad Config.params) s

/-- R243: the EXECUTE step of PKCS7_UNPAD. -/
def execPkcs7Unpad (s : State) : Host.Outcome State Fault Refusal := complete (runPkcs7Unpad Config.params) s

/-- R244: the EXECUTE step of IV_PREPEND. -/
def execIvPrepend (s : State) : Host.Outcome State Fault Refusal := complete (runIvPrepend Config.params) s

end Sys2Proof.Machine
end

