-- ==== Sys2Proof/Machine/Envelope.lean ====
section
/-! DEFINITION. The envelope commands of the Symmetric Cipher Engine (R260 to R283). -/

namespace Sys2Proof.Machine

/-- R262: `KeyFromRaw(B)`. -/
def keyFromRaw (b : Bytes) : Except CommandError Bytes := do
  requireRawKey b
  .ok b

/-- R262: `KeyFromPhrase(B, C)`. -/
def keyFromPhrase (p : Params) (b c : Bytes) : Except CommandError Bytes := do
  requireNonEmpty .b b
  .ok (kdf p b c)

/-- R266: `EncryptEnvelope(P, K, iv)`. -/
def encryptEnvelope (plain k iv : Bytes) : Bytes := ivPrependBytes iv (cbcEncrypt (pkcs7PadBytes plain) k iv)

/-- R268, R272: `DecryptEnvelope(E, K)`. -/
def decryptEnvelope (e k : Bytes) : Except CommandError Bytes := do
  let (iv, cb) := splitEnvelope e
  raiseIf (cb.length % 16 != 0) .decryptionFailure
  unpadResult (cbcDecrypt cb k iv)

/-- R280: `CmdEncrypt(A, B, iv)`. -/
def cmdEncrypt (a b iv : Bytes) : Except CommandError Bytes := do
  requireNonEmpty .a a
  let k ← keyFromRaw b
  .ok (encryptEnvelope a k iv)

/-- R281: `CmdEncryptPhrase(A, B, C, iv)`. -/
def cmdEncryptPhrase (p : Params) (a b c iv : Bytes) : Except CommandError Bytes := do
  requireNonEmpty .a a
  let k ← keyFromPhrase p b c
  .ok (encryptEnvelope a k iv)

/-- R282: `CmdDecrypt(A, B)`. -/
def cmdDecrypt (a b : Bytes) : Except CommandError Bytes := do
  checkEnvelope a
  let k ← keyFromRaw b
  decryptEnvelope a k

/-- R283: `CmdDecryptPhrase(A, B, C)`. -/
def cmdDecryptPhrase (p : Params) (a b c : Bytes) : Except CommandError Bytes := do
  checkEnvelope a
  let k ← keyFromPhrase p b c
  decryptEnvelope a k

/-- R80 step 3, R280: ENCRYPT.AES256. -/
def runEncryptAes256 (p : Params) (a b c iv : Bytes) : Except CommandError Bytes := do
  checkSizes p a b c (reads .encryptAes256)
  cmdEncrypt a b iv

/-- R80 step 3, R281: ENCRYPT_PHRASE.AES256. -/
def runEncryptPhraseAes256 (p : Params) (a b c iv : Bytes) : Except CommandError Bytes := do
  checkSizes p a b c (reads .encryptPhraseAes256)
  cmdEncryptPhrase p a b c iv

/-- R80 step 3, R282: DECRYPT.AES256. -/
def runDecryptAes256 (p : Params) (a b c : Bytes) : Except CommandError Bytes := do
  checkSizes p a b c (reads .decryptAes256)
  cmdDecrypt a b

/-- R80 step 3, R283: DECRYPT_PHRASE.AES256. -/
def runDecryptPhraseAes256 (p : Params) (a b c : Bytes) : Except CommandError Bytes := do
  checkSizes p a b c (reads .decryptPhraseAes256)
  cmdDecryptPhrase p a b c

/-- R264, R280: the EXECUTE step of ENCRYPT.AES256. -/
def execEncryptAes256 (s : State) : Host.Outcome State Fault Refusal := completeDrawing (runEncryptAes256 Config.params) s

/-- R264, R281: the EXECUTE step of ENCRYPT_PHRASE.AES256. -/
def execEncryptPhraseAes256 (s : State) : Host.Outcome State Fault Refusal :=
  completeDrawing (runEncryptPhraseAes256 Config.params) s

/-- R282: the EXECUTE step of DECRYPT.AES256. -/
def execDecryptAes256 (s : State) : Host.Outcome State Fault Refusal := complete (runDecryptAes256 Config.params) s

/-- R283: the EXECUTE step of DECRYPT_PHRASE.AES256. -/
def execDecryptPhraseAes256 (s : State) : Host.Outcome State Fault Refusal :=
  complete (runDecryptPhraseAes256 Config.params) s

end Sys2Proof.Machine
end

