-- ==== Sys2Proof/Machine/Dispatch.lean ====
section
/-! DEFINITION. The dispatch on the command: the case list of R80, one meaning for each command, acting on the channel
`active` names. -/

namespace Sys2Proof.Machine

def exec (i : Instr) (s : State) : Host.Outcome State Fault Refusal :=
  match i with
  | .digestSha256 => Sys2Proof.Machine.execDigestSha256 s
  | .digestSha512 => Sys2Proof.Machine.execDigestSha512 s
  | .deriveKeyAes256 => Sys2Proof.Machine.execDeriveKeyAes256 s
  | .encryptAes256 => Sys2Proof.Machine.execEncryptAes256 s
  | .encryptPhraseAes256 => Sys2Proof.Machine.execEncryptPhraseAes256 s
  | .decryptAes256 => Sys2Proof.Machine.execDecryptAes256 s
  | .decryptPhraseAes256 => Sys2Proof.Machine.execDecryptPhraseAes256 s
  | .aesKeyExpand => Sys2Proof.Machine.execAesKeyExpand s
  | .aesCbcEncrypt => Sys2Proof.Machine.execAesCbcEncrypt s
  | .aesCbcDecrypt => Sys2Proof.Machine.execAesCbcDecrypt s
  | .pkcs7Pad => Sys2Proof.Machine.execPkcs7Pad s
  | .pkcs7Unpad => Sys2Proof.Machine.execPkcs7Unpad s
  | .ivPrepend => Sys2Proof.Machine.execIvPrepend s

end Sys2Proof.Machine
end

