-- ==== Sys2Proof/Machine/Schedule.lean ====
section
/-! DEFINITION. Who moves, and the moves: EXECUTE of a channel (R31), the host's actions (R30, R32, R33, R340), and the order
in which the agenda's moves are made (logs 5 to 9). -/

namespace Sys2Proof.Machine

/-- R31, R80: channel k, which holds `ch` with `BUSY` = 1, takes its EXECUTE step: its command word is decoded and the command
run; a word that encodes no operation completes with its error. -/
def executeChannel (k : Nat) (ch : Channel) (s : State) : Host.Outcome State Fault Refusal :=
  let s := { s with active := k }
  match decode ch.cmd with
  | .ok i => exec i s
  | .error e => raiseError (decodeErrorOf e) s

/-- R31: EXECUTE is enabled only when `BUSY` = 1; a turn given to an idle channel passes (log 9). -/
def moveExecute (k : Nat) (s : State) : Host.Outcome State Fault Refusal :=
  match s.channel? k with
  | none => .fault (.noSuchChannel k)
  | some ch => if ch.busy then executeChannel k ch s.nextMove else .next s.nextMove

/-- R30, R350: SUBMIT is enabled only when `BUSY` = 0; otherwise the host waits, its move standing, while the channel takes
its EXECUTE step (log 7). -/
def moveSubmit (k : Nat) (cmd : CommandWord) (a b c : Bytes) (s : State) : Host.Outcome State Fault Refusal :=
  match s.channel? k with
  | none => .fault (.noSuchChannel k)
  | some ch =>
    if ch.busy then executeChannel k ch s
    else .next (s.nextMove.setChannel k (Channel.submitted cmd a b c))

/-- R32, R33: COLLECT; while `BUSY` = 1 the host waits, its move standing (log 7). -/
def moveCollect (k : Nat) (s : State) : Host.Outcome State Fault Refusal :=
  match s.channel? k with
  | none => .fault (.noSuchChannel k)
  | some ch => if ch.busy then executeChannel k ch s else .next (collect k ch s.nextMove)

/-- R23, R28: the host reads `BUSY`, at any time and with no side effect. -/
def moveReadBusy (k : Nat) (s : State) : Host.Outcome State Fault Refusal :=
  match s.channel? k with
  | none => .fault (.noSuchChannel k)
  | some ch => .next (s.nextMove.hand (.busy k ch.busy))

/-- R24, R28: the host reads `RESULT_VALID`, at any time and with no side effect. -/
def moveReadResultValid (k : Nat) (s : State) : Host.Outcome State Fault Refusal :=
  match s.channel? k with
  | none => .fault (.noSuchChannel k)
  | some ch => .next (s.nextMove.hand (.resultValid k ch.resultValid))

/-- R355: with no move of the agenda left, the channels run on: the lowest-numbered busy one takes its EXECUTE step; where none
is busy the block does nothing (R325; log 6). -/
def runOn (s : State) : Host.Outcome State Fault Refusal :=
  match firstBusy s with
  | none => .next s
  | some k =>
    match s.channel? k with
    | none => .fault (.noSuchChannel k)
    | some ch => executeChannel k ch s

/-- One move of one agent: the agenda's first, or the channels running on. -/
def takeTurn (s : State) : Host.Outcome State Fault Refusal :=
  match s.agenda with
  | [] => runOn s
  | .submit k cmd a b c :: _ => moveSubmit k cmd a b c s
  | .execute k :: _ => moveExecute k s
  | .collect k :: _ => moveCollect k s
  | .readBusy k :: _ => moveReadBusy k s
  | .readResultValid k :: _ => moveReadResultValid k s
  | .reset :: _ => .next (resetBlock s.nextMove)

/-- Channel 0 holds the command word, busy, its operands as they stand; its EXECUTE step is the next move (log 12). -/
def placeCommand (cmd : CommandWord) (s : State) : State :=
  match s.channel? 0 with
  | none => s
  | some ch => { s.setChannel 0 { ch with cmd := cmd, busy := true } with agenda := .execute 0 :: s.agenda }

end Sys2Proof.Machine
end

