-- ==== Sys2Proof/Safety.lean ====
section
/-! DEFINITION. The terms claims are stated in: a command's result as one function of the command, what a channel may hold,
what a move may name, and the work still pending. -/

namespace Sys2Proof.Machine

/-- R80: the result of a command, as its EXECUTE step computes it from the latched operands and a draw. -/
def commandResult (p : Params) : Instr → (a b c iv : Bytes) → Except CommandError Bytes
  | .digestSha256, a, b, c, _ => runDigestSha256 p a b c
  | .digestSha512, a, b, c, _ => runDigestSha512 p a b c
  | .deriveKeyAes256, a, b, c, _ => runDeriveKeyAes256 p a b c
  | .encryptAes256, a, b, c, iv => runEncryptAes256 p a b c iv
  | .encryptPhraseAes256, a, b, c, iv => runEncryptPhraseAes256 p a b c iv
  | .decryptAes256, a, b, c, _ => runDecryptAes256 p a b c
  | .decryptPhraseAes256, a, b, c, _ => runDecryptPhraseAes256 p a b c
  | .aesKeyExpand, a, b, c, _ => runAesKeyExpand p a b c
  | .aesCbcEncrypt, a, b, c, _ => runAesCbcEncrypt p a b c
  | .aesCbcDecrypt, a, b, c, _ => runAesCbcDecrypt p a b c
  | .pkcs7Pad, a, b, c, _ => runPkcs7Pad p a b c
  | .pkcs7Unpad, a, b, c, _ => runPkcs7Unpad p a b c
  | .ivPrepend, a, b, c, _ => runIvPrepend p a b c

/-- R264: the commands whose EXECUTE step takes a draw. -/
def takesDraw : Instr → Bool
  | .encryptAes256 => true
  | .encryptPhraseAes256 => true
  | _ => false

/-- R25, R26, R301, R302: the pairs (`STATUS`, `INFO`) a channel can hold. -/
def legalReport (status info : Byte) : Bool :=
  (status == 0x00 && info == 0x00) ||
  (status == 0x01 && [0x11, 0x12, 0x13, 0x21, 0x22, 0x23, 0x31, 0x32, 0x33].contains info) ||
  status == 0x02 ||
  (status == 0x03 && info == 0x01) ||
  (status == 0x04 && info == 0x00) ||
  (status == 0x06 && [0x01, 0x02, 0x03].contains info)

/-- What a channel may hold between steps (R21 to R27, R30 to R32): a legal report; no result beside an error (R27); a busy
channel reports nothing (R30); an idle one latches nothing (R31); and without a result waiting there is no report (R32). -/
def Channel.legal (ch : Channel) : Bool :=
  legalReport ch.status ch.info &&
  (ch.status == statusOk || ch.out == []) &&
  (!ch.busy || !ch.resultValid) &&
  (ch.busy || (ch.cmd == 0 && ch.a == [] && ch.b == [] && ch.c == [])) &&
  (ch.resultValid || (ch.status == statusOk && ch.info == 0x00 && ch.out == []))

/-- The invariant of the machine: `N_CHANNELS` channels (R20), each legal. -/
def State.Inv (s : State) : Prop :=
  s.channels.length = Config.nChannels ∧ ∀ ch ∈ s.channels, ch.legal = true

/-- The channel a move names is one of the first `n` (R20, R323). -/
def Move.inRange (n : Nat) : Move → Bool
  | .submit k _ _ _ _ => decide (k < n)
  | .execute k => decide (k < n)
  | .collect k => decide (k < n)
  | .readBusy k => decide (k < n)
  | .readResultValid k => decide (k < n)
  | .reset => true

/-- A safe run: every move of the agenda names a channel of the block. -/
def State.agendaInRange (s : State) : Prop := ∀ m ∈ s.agenda, m.inRange s.channels.length = true

/-- How many channels have `BUSY` = 1. -/
def busyCount (s : State) : Nat := s.channels.countP (·.busy)

/-- R355: a bound on the steps still to be taken before every submitted command is done and the agenda is empty. -/
def pendingWork (s : State) : Nat := 2 * s.agenda.length + busyCount s

/-- R325: nothing moves: the agenda is empty and no channel is busy. -/
def State.quiet (s : State) : Prop := s.agenda = [] ∧ busyCount s = 0

end Sys2Proof.Machine
end

