-- ==== Sys2Proof/Certificates/Slice0/Obligations.lean ====
section
/-! DEFINITION. The statements for the provers. Each docstring names the rules it rests on. Where a clause rests on a choice of
the model (an entry of the assumption log), the docstring says so. -/

open Sys2Proof Sys2Proof.Machine

namespace Sys2Proof.Claim

/-- R31: a channel right after an EXECUTE step that completed with this report and result. -/
def reported (status info : Byte) (out : Bytes) : Channel :=
  { cmd := 0x00000000, a := [], b := [], c := [], busy := false, resultValid := true, status := status, info := info, out := out }

/-- The state after the active channel's EXECUTE step completed with this report and result, no draw being taken. -/
def completed (s : State) (status info : Byte) (out : Bytes) : State :=
  { s with channels := s.channels.set s.active (reported status info out) }

/-- R71: the `OP` values that name an operation. -/
def assignedOps : List Byte := [0x01, 0x02, 0x03, 0x04, 0x05, 0x06, 0x10, 0x11, 0x12, 0x13, 0x14, 0x15]

/-- R71: the `OP` values of the stage commands. -/
def stageOps : List Byte := [0x10, 0x11, 0x12, 0x13, 0x14, 0x15]

/-- R72: the enumeration of `ALG` for the ciphers and the key derivation has one usable value, 2. -/
def cipherOps : List Byte := [0x02, 0x03, 0x04, 0x05, 0x06]

/-- R306 steps 1 and 2: the checks on the command word, each with the report of its violation. -/
def wordChecks (op alg : Byte) (rsv : BitVec 16) : List (Bool × Byte × Byte) :=
  [(!assignedOps.contains op, 0x06, 0x01),
    (rsv != 0, 0x06, 0x03),
    (stageOps.contains op && alg != 0, 0x06, 0x02),
    (op == 0x01 && alg != 3 && alg != 5, 0x02, alg),
    (cipherOps.contains op && alg != 2, 0x02, alg)]

/-- R77, R79, R306 step 3: A, B, C in order, where the operation reads them, are at most `MAX_LEN` bytes long. -/
def sizeChecks (maxLen : Nat) (op : Byte) (a b c : Bytes) : List (Bool × Byte × Byte) :=
  [(!([0x02, 0x10] : List Byte).contains op && decide (maxLen < a.length), 0x01, 0x31),
    (([0x02, 0x03, 0x04, 0x05, 0x06, 0x10, 0x11, 0x12] : List Byte).contains op && decide (maxLen < b.length), 0x01, 0x32),
    (([0x02, 0x04, 0x06, 0x11, 0x12, 0x15] : List Byte).contains op && decide (maxLen < c.length), 0x01, 0x33)]

/-- R77, R306 step 4: the command's own checks, operand A first, then B, then C, with EMPTY before LENGTH. -/
def operandChecks (op : Byte) (a b c : Bytes) : List (Bool × Byte × Byte) :=
  [(!([0x02, 0x10, 0x13, 0x15] : List Byte).contains op && a.length == 0, 0x01, 0x11),
    (([0x05, 0x06] : List Byte).contains op && decide (a.length ≤ 16), 0x03, 0x01),
    (([0x11, 0x12, 0x14] : List Byte).contains op && a.length % 16 != 0, 0x01, 0x21),
    (([0x02, 0x03, 0x04, 0x05, 0x06, 0x10, 0x11, 0x12] : List Byte).contains op && b.length == 0, 0x01, 0x12),
    (([0x03, 0x05, 0x10, 0x11, 0x12] : List Byte).contains op &&
      !([16, 24, 32] : List Nat).contains b.length, 0x01, 0x22),
    (([0x11, 0x12, 0x15] : List Byte).contains op && c.length == 0, 0x01, 0x13),
    (([0x11, 0x12, 0x15] : List Byte).contains op && c.length != 16, 0x01, 0x23)]

/-- R130 to R283: what the operation computes once its checks have passed; `none` is a decryption failure. -/
def computed (p : Params) (op alg : Byte) (a b c iv : Bytes) : Option Bytes :=
  if op = 0x01 then some (if alg = 3 then sha256 a else sha512 a)
  else if op = 0x02 then some (kdf p b c)
  else if op = 0x03 then some (iv ++ cbcEncrypt (pkcs7PadBytes a) b iv)
  else if op = 0x04 then some (iv ++ cbcEncrypt (pkcs7PadBytes a) (kdf p b c) iv)
  else if op = 0x05 then
    if a.length % 16 = 0 then pkcs7UnpadBytes (cbcDecrypt (a.drop 16) b (a.take 16)) else none
  else if op = 0x06 then
    if a.length % 16 = 0 then pkcs7UnpadBytes (cbcDecrypt (a.drop 16) (kdf p b c) (a.take 16)) else none
  else if op = 0x10 then some (keyExpansion b).flatten
  else if op = 0x11 then some (cbcEncrypt a b c)
  else if op = 0x12 then some (cbcDecrypt a b c)
  else if op = 0x13 then some (pkcs7PadBytes a)
  else if op = 0x14 then pkcs7UnpadBytes a
  else some (c ++ a)

/-- R306: exactly one error is reported, the first in the order of the checks, then DECRYPTION_FAILURE, else the result. The
last component is the number of draws taken (R264). -/
def run (p : Params) (cmd : CommandWord) (a b c iv : Bytes) : Byte × Byte × Bytes × Nat :=
  let op := cmd.extractLsb' 0 8
  let alg := cmd.extractLsb' 8 8
  let rsv := cmd.extractLsb' 16 16
  match (wordChecks op alg rsv ++ sizeChecks p.maxLen op a b c ++ operandChecks op a b c).find? (·.1) with
  | some (_, status, info) => (status, info, [], 0)
  | none =>
    match computed p op alg a b c iv with
    | none => (0x04, 0x00, [], 0)
    | some out => (0x00, 0x00, out, if op = 0x03 ∨ op = 0x04 then 1 else 0)

/-- R103, R121: k zeros bring a padding to `room` bytes short of a whole block. -/
def fills (block room len k : Nat) : Prop := (len + 1 + k) % block = room

end Sys2Proof.Claim

open Sys2Proof.Claim

/-! ### Encoding -/

/-- R76: the thirteen legal command words, written out, decode to their commands. -/
def Obligations.LegalWordsDecodeToTheirCommands : Prop :=
  decode 0b00000000000000000000001100000001 = .ok .digestSha256 ∧
  decode 0b00000000000000000000010100000001 = .ok .digestSha512 ∧
  decode 0b00000000000000000000001000000010 = .ok .deriveKeyAes256 ∧
  decode 0b00000000000000000000001000000011 = .ok .encryptAes256 ∧
  decode 0b00000000000000000000001000000100 = .ok .encryptPhraseAes256 ∧
  decode 0b00000000000000000000001000000101 = .ok .decryptAes256 ∧
  decode 0b00000000000000000000001000000110 = .ok .decryptPhraseAes256 ∧
  decode 0b00000000000000000000000000010000 = .ok .aesKeyExpand ∧
  decode 0b00000000000000000000000000010001 = .ok .aesCbcEncrypt ∧
  decode 0b00000000000000000000000000010010 = .ok .aesCbcDecrypt ∧
  decode 0b00000000000000000000000000010011 = .ok .pkcs7Pad ∧
  decode 0b00000000000000000000000000010100 = .ok .pkcs7Unpad ∧
  decode 0b00000000000000000000000000010101 = .ok .ivPrepend

/-- R76: decode and encode agree on all 2^32 words: a word decodes to a command exactly when it is that command's word, so
every command's word decodes to it and every other word encodes no command. -/
def Obligations.WordDecodesExactlyWhenItIsTheEncoding : Prop :=
  ∀ (w : CommandWord) (i : Instr), decode w = .ok i ↔ w = encode i

/-- R73, R75, and R74 in the order of R306: when the channel whose turn it is holds a word that encodes no operation, its
EXECUTE step completes with that word's error, and changes nothing outside the channel but the model's record of the turn. The
agenda is the model's (log 5), and that a reserved `OP` comes before a nonzero `RSV` is its reading (log 19). -/
def Obligations.IllegalWordsCompleteWithTheirError : Prop :=
  ∀ (s : State) (k : Nat) (rest : List Move) (ch : Channel),
    s.agenda = .execute k :: rest → s.channel? k = some ch → ch.busy = true →
    let op := ch.cmd.extractLsb' 0 8
    let alg := ch.cmd.extractLsb' 8 8
    let rsv := ch.cmd.extractLsb' 16 16
    let errs (status info : Byte) : Prop := step s = .next (completed { s with agenda := rest, active := k } status info [])
    (op ∉ assignedOps → errs 0x06 0x01) ∧
    (op ∈ assignedOps → rsv ≠ 0 → errs 0x06 0x03) ∧
    (op ∈ stageOps → rsv = 0 → alg ≠ 0 → errs 0x06 0x02) ∧
    (op = 0x01 → rsv = 0 → alg ≠ 3 → alg ≠ 5 → errs 0x02 alg) ∧
    (op ∈ cipherOps → rsv = 0 → alg ≠ 2 → errs 0x02 alg)

/-! ### Who moves, and the host's actions -/

/-- R31, R80: a turn of channel k runs exactly the command its latched word decodes to. (The agenda is the model's: log 5.) -/
def Obligations.StepRunsDecodedCommand : Prop :=
  ∀ (s : State) (k : Nat) (rest : List Move) (ch : Channel) (i : Instr),
    s.agenda = .execute k :: rest → s.channel? k = some ch → ch.busy = true → decode ch.cmd = .ok i →
    step s = exec i { s with agenda := rest, active := k }

/-- R30, R32, R350, with the model's choice of log 7: a host whose SUBMIT or COLLECT finds `BUSY` = 1 waits; the channel runs
its command and the host's move stands. -/
def Obligations.WaitingHostLetsTheChannelRun : Prop :=
  ∀ (s : State) (k : Nat) (rest : List Move) (ch : Channel) (i : Instr) (cmd : CommandWord) (a b c : Bytes),
    (s.agenda = .submit k cmd a b c :: rest ∨ s.agenda = .collect k :: rest) → s.channel? k = some ch → ch.busy = true →
    decode ch.cmd = .ok i → step s = exec i { s with active := k }

/-- R325, R355, with the model's choice of log 6: with no move left, the lowest-numbered busy channel runs its command; where
no channel is busy the block does nothing. -/
def Obligations.BlockRunsOnWithoutMoves : Prop :=
  ∀ (s : State), s.agenda = [] →
    (∀ (k : Nat) (ch : Channel) (i : Instr), s.channel? k = some ch → ch.busy = true →
      (∀ (j : Nat) (other : Channel), j < k → s.channel? j = some other → other.busy = false) →
      decode ch.cmd = .ok i → step s = exec i { s with active := k }) ∧
    ((∀ ch ∈ s.channels, ch.busy = false) → step s = .next s)

/-- R30: SUBMIT latches the word and the three operands, whatever they are, discards an uncollected result and sets `BUSY`. While
`BUSY` = 1 it is not made (R30); that the very next step is then the channel's own EXECUTE, the SUBMIT still standing, is the
model's choice (log 7), and no rule of the spec. That it is made as the agenda's first move is the model's too (log 5). -/
def Obligations.SubmitLatchesTheCommand : Prop :=
  ∀ (s : State) (k : Nat) (cmd : CommandWord) (a b c : Bytes) (rest : List Move) (ch : Channel),
    s.agenda = .submit k cmd a b c :: rest → s.channel? k = some ch →
    (ch.busy = false →
      step s = .next
        { s with
          agenda := rest
          channels := s.channels.set k
            { cmd := cmd, a := a, b := b, c := c, busy := true, resultValid := false, status := 0x00, info := 0x00,
              out := [] } }) ∧
    (ch.busy = true → ∃ (t : State) (status info : Byte) (out : Bytes),
      step s = .next t ∧ t.agenda = s.agenda ∧ t.channel? k = some (reported status info out))

/-- R32: COLLECT hands the host the triple and clears it. While `BUSY` = 1 it is not made (R32); that the very next step is then
the channel's own EXECUTE, the COLLECT still standing, is the model's choice (log 7), and no rule of the spec. The agenda and the
list of replies are the model's too (logs 5 and 11). -/
def Obligations.CollectReturnsAndClearsTheResult : Prop :=
  ∀ (s : State) (k : Nat) (rest : List Move) (ch : Channel),
    s.agenda = .collect k :: rest → s.channel? k = some ch →
    (ch.busy = false → ch.resultValid = true →
      step s = .next
        { s with
          agenda := rest
          channels := s.channels.set k { ch with out := [], status := 0x00, info := 0x00, resultValid := false }
          replies := s.replies ++ [.collected k ch.status ch.info ch.out] }) ∧
    (ch.busy = true → ∃ (t : State) (status info : Byte) (out : Bytes),
      step s = .next t ∧ t.agenda = s.agenda ∧ t.replies = s.replies ∧ t.channel? k = some (reported status info out))

/-- R33, R312, with the model's choice of log 8 (the fault is handed to the host and the machine goes on): a COLLECT that finds
nothing pending leaves every channel as it was. -/
def Obligations.CollectWithNothingPendingFaultsTheHost : Prop :=
  ∀ (s : State) (k : Nat) (rest : List Move) (ch : Channel),
    s.agenda = .collect k :: rest → s.channel? k = some ch → ch.busy = false → ch.resultValid = false →
    step s = .next { s with agenda := rest, replies := s.replies ++ [.fault k .collectNothingPending] }

/-- R23, R24, R28: the host can read `BUSY` and `RESULT_VALID` in any state, and the read changes no channel. The agenda and
the list of replies are the model's (logs 5 and 11). -/
def Obligations.ReadingTheFlagsHasNoSideEffect : Prop :=
  ∀ (s : State) (k : Nat) (rest : List Move) (ch : Channel), s.channel? k = some ch →
    (s.agenda = .readBusy k :: rest →
      step s = .next { s with agenda := rest, replies := s.replies ++ [.busy k ch.busy] }) ∧
    (s.agenda = .readResultValid k :: rest →
      step s = .next { s with agenda := rest, replies := s.replies ++ [.resultValid k ch.resultValid] })

/-- R340: RESET, in any state, gives every item of every channel its reset value; commands in flight and uncollected results
are gone, no draw is taken, and no reply reaches the host. The agenda, the replies and the draw counter are the model's (logs 4,
5 and 11). -/
def Obligations.ResetActionClearsEveryChannel : Prop :=
  ∀ (s : State) (rest : List Move), s.agenda = .reset :: rest →
    step s = .next
      { s with
        agenda := rest
        channels := List.replicate s.channels.length
          { cmd := 0x00000000, a := [], b := [], c := [], busy := false, resultValid := false, status := 0x00, info := 0x00,
            out := [] } }

/-- R9, R20, R35: the machine right after reset has `N_CHANNELS` ≥ 1 channels at the values of the reset table; the parameters
are in their ranges. -/
def Obligations.ResetStateHoldsTheTableAndParametersAreInRange : Prop :=
  State.reset.channels.length = Config.nChannels ∧ 1 ≤ Config.nChannels ∧
  (∀ ch ∈ State.reset.channels,
    ch = { cmd := 0x00000000, a := [], b := [], c := [], busy := false, resultValid := false, status := 0x00, info := 0x00,
           out := [] }) ∧
  48 ≤ Config.maxLen ∧ Config.maxLen < 2 ^ 60 ∧ Config.defaultSalt.length ≤ Config.maxLen

/-! ### Every command completes -/

/-- R130: DIGEST.SHA256 of a non-empty message. -/
def Obligations.DigestSha256Completes : Prop :=
  ∀ (s : State) (ch : Channel), s.channel? s.active = some ch → ch.a ≠ [] → ch.a.length ≤ Config.maxLen →
    exec .digestSha256 s = .next (completed s 0x00 0x00 (sha256 ch.a))

/-- R131: DIGEST.SHA512 of a non-empty message. -/
def Obligations.DigestSha512Completes : Prop :=
  ∀ (s : State) (ch : Channel), s.channel? s.active = some ch → ch.a ≠ [] → ch.a.length ≤ Config.maxLen →
    exec .digestSha512 s = .next (completed s 0x00 0x00 (sha512 ch.a))

/-- R150, R151, R160: DERIVE_KEY.AES256 is one SHA-256 of the phrase and the salt, an empty salt standing for the default. -/
def Obligations.DeriveKeyCompletes : Prop :=
  ∀ (s : State) (ch : Channel), s.channel? s.active = some ch → ch.b ≠ [] → ch.b.length ≤ Config.maxLen →
    ch.c.length ≤ Config.maxLen →
    exec .deriveKeyAes256 s =
      .next (completed s 0x00 0x00 (sha256 (ch.b ++ if ch.c = [] then Config.defaultSalt else ch.c)))

/-- R264, R266, R280: ENCRYPT.AES256 takes one draw; its envelope is the draw and the CBC encryption of the padded plaintext.
It holds for whatever value the draw has (log 4). -/
def Obligations.EncryptCompletes : Prop :=
  ∀ (s : State) (ch : Channel), s.channel? s.active = some ch → ch.a ≠ [] → ch.a.length ≤ Config.maxLen →
    ch.b.length = 16 ∨ ch.b.length = 24 ∨ ch.b.length = 32 →
    let iv := (Config.draw s.draws).toList
    exec .encryptAes256 s =
      .next { completed s 0x00 0x00 (iv ++ cbcEncrypt (pkcs7PadBytes ch.a) ch.b iv) with draws := s.draws + 1 }

/-- R262, R264, R266, R281: ENCRYPT_PHRASE.AES256 does the same under the key derived from the phrase and the salt,
for whatever value the draw has (log 4). -/
def Obligations.EncryptPhraseCompletes : Prop :=
  ∀ (s : State) (ch : Channel), s.channel? s.active = some ch → ch.a ≠ [] → ch.a.length ≤ Config.maxLen →
    ch.b ≠ [] → ch.b.length ≤ Config.maxLen → ch.c.length ≤ Config.maxLen →
    let iv := (Config.draw s.draws).toList
    exec .encryptPhraseAes256 s =
      .next { completed s 0x00 0x00 (iv ++ cbcEncrypt (pkcs7PadBytes ch.a) (kdf Config.params ch.b ch.c) iv) with
        draws := s.draws + 1 }

/-- R268, R282: DECRYPT.AES256 of an envelope of whole blocks whose decryption ends in a valid pad. -/
def Obligations.DecryptCompletes : Prop :=
  ∀ (s : State) (ch : Channel) (plain : Bytes), s.channel? s.active = some ch → 16 < ch.a.length → ch.a.length % 16 = 0 →
    ch.a.length ≤ Config.maxLen → ch.b.length = 16 ∨ ch.b.length = 24 ∨ ch.b.length = 32 →
    pkcs7UnpadBytes (cbcDecrypt (ch.a.drop 16) ch.b (ch.a.take 16)) = some plain →
    exec .decryptAes256 s = .next (completed s 0x00 0x00 plain)

/-- R262, R268, R283: DECRYPT_PHRASE.AES256 does the same under the key derived from the phrase and the salt. -/
def Obligations.DecryptPhraseCompletes : Prop :=
  ∀ (s : State) (ch : Channel) (plain : Bytes), s.channel? s.active = some ch → 16 < ch.a.length → ch.a.length % 16 = 0 →
    ch.a.length ≤ Config.maxLen → ch.b ≠ [] → ch.b.length ≤ Config.maxLen → ch.c.length ≤ Config.maxLen →
    pkcs7UnpadBytes (cbcDecrypt (ch.a.drop 16) (kdf Config.params ch.b ch.c) (ch.a.take 16)) = some plain →
    exec .decryptPhraseAes256 s = .next (completed s 0x00 0x00 plain)

/-- R182, R200: AES_KEY_EXPAND returns the round-key words, one after the other. -/
def Obligations.KeyExpandCompletes : Prop :=
  ∀ (s : State) (ch : Channel), s.channel? s.active = some ch → ch.b.length = 16 ∨ ch.b.length = 24 ∨ ch.b.length = 32 →
    exec .aesKeyExpand s = .next (completed s 0x00 0x00 (keyExpansion ch.b).flatten)

/-- R240: AES_CBC_ENCRYPT of whole blocks. -/
def Obligations.CbcEncryptCompletes : Prop :=
  ∀ (s : State) (ch : Channel), s.channel? s.active = some ch → ch.a ≠ [] → ch.a.length % 16 = 0 →
    ch.a.length ≤ Config.maxLen → ch.b.length = 16 ∨ ch.b.length = 24 ∨ ch.b.length = 32 → ch.c.length = 16 →
    exec .aesCbcEncrypt s = .next (completed s 0x00 0x00 (cbcEncrypt ch.a ch.b ch.c))

/-- R241: AES_CBC_DECRYPT of whole blocks, whatever they hold. -/
def Obligations.CbcDecryptCompletes : Prop :=
  ∀ (s : State) (ch : Channel), s.channel? s.active = some ch → ch.a ≠ [] → ch.a.length % 16 = 0 →
    ch.a.length ≤ Config.maxLen → ch.b.length = 16 ∨ ch.b.length = 24 ∨ ch.b.length = 32 → ch.c.length = 16 →
    exec .aesCbcDecrypt s = .next (completed s 0x00 0x00 (cbcDecrypt ch.a ch.b ch.c))

/-- R230, R242: PKCS7_PAD adds n bytes of value n, n = 16 − |A| mod 16, to data of any length. -/
def Obligations.PadCompletes : Prop :=
  ∀ (s : State) (ch : Channel), s.channel? s.active = some ch → ch.a.length ≤ Config.maxLen →
    exec .pkcs7Pad s =
      .next (completed s 0x00 0x00
        (ch.a ++ List.replicate (16 - ch.a.length % 16) (BitVec.ofNat 8 (16 - ch.a.length % 16))))

/-- R232, R243: PKCS7_UNPAD of whole blocks whose last n bytes all have the value n, 1 ≤ n ≤ 16. -/
def Obligations.UnpadCompletes : Prop :=
  ∀ (s : State) (ch : Channel) (d : Bytes) (n : Nat), s.channel? s.active = some ch → 1 ≤ n → n ≤ 16 →
    ch.a = d ++ List.replicate n (BitVec.ofNat 8 n) → ch.a.length % 16 = 0 → ch.a.length ≤ Config.maxLen →
    exec .pkcs7Unpad s = .next (completed s 0x00 0x00 d)

/-- R234, R244: IV_PREPEND puts the 16-byte C before A, of any length. -/
def Obligations.IvPrependCompletes : Prop :=
  ∀ (s : State) (ch : Channel), s.channel? s.active = some ch → ch.a.length ≤ Config.maxLen → ch.c.length = 16 →
    exec .ivPrepend s = .next (completed s 0x00 0x00 (ch.c ++ ch.a))

/-! ### Where commands report an error -/

/-- R130, R131: the digest commands report TOO_LONG and EMPTY for their message. -/
def Obligations.DigestsReportTheirErrors : Prop :=
  ∀ (s : State) (ch : Channel) (i : Instr), s.channel? s.active = some ch → i = .digestSha256 ∨ i = .digestSha512 →
    (Config.maxLen < ch.a.length → exec i s = .next (completed s 0x01 0x31 [])) ∧
    (ch.a = [] → exec i s = .next (completed s 0x01 0x11 []))

/-- R160: DERIVE_KEY reports TOO_LONG for the phrase, then for the salt, then EMPTY for the phrase. -/
def Obligations.DeriveKeyReportsItsErrors : Prop :=
  ∀ (s : State) (ch : Channel), s.channel? s.active = some ch →
    (Config.maxLen < ch.b.length → exec .deriveKeyAes256 s = .next (completed s 0x01 0x32 [])) ∧
    (ch.b.length ≤ Config.maxLen → Config.maxLen < ch.c.length →
      exec .deriveKeyAes256 s = .next (completed s 0x01 0x33 [])) ∧
    (ch.b = [] → ch.c.length ≤ Config.maxLen → exec .deriveKeyAes256 s = .next (completed s 0x01 0x12 []))

/-- R262, R264, R280, R281, R303: once the operands fit, the encryption commands report an empty plaintext first, then the
key's faults, and take no draw (the state is unchanged but for the channel). -/
def Obligations.EncryptionsReportTheirErrors : Prop :=
  ∀ (s : State) (ch : Channel), s.channel? s.active = some ch → ch.a.length ≤ Config.maxLen → ch.b.length ≤ Config.maxLen →
    (ch.a = [] → exec .encryptAes256 s = .next (completed s 0x01 0x11 [])) ∧
    (ch.a ≠ [] → ch.b = [] → exec .encryptAes256 s = .next (completed s 0x01 0x12 [])) ∧
    (ch.a ≠ [] → ch.b ≠ [] → ch.b.length ∉ [16, 24, 32] → exec .encryptAes256 s = .next (completed s 0x01 0x22 [])) ∧
    (ch.c.length ≤ Config.maxLen → ch.a = [] → exec .encryptPhraseAes256 s = .next (completed s 0x01 0x11 [])) ∧
    (ch.c.length ≤ Config.maxLen → ch.a ≠ [] → ch.b = [] →
      exec .encryptPhraseAes256 s = .next (completed s 0x01 0x12 []))

/-- R262, R268, R270, R272, R282: once the operands fit, DECRYPT reports an empty envelope, then one of 1 to 16 bytes as
malformed whatever the key, then the key's faults, then a ciphertext that is no whole number of blocks or ends in a bad pad
as the one opaque decryption failure. -/
def Obligations.DecryptReportsItsErrors : Prop :=
  ∀ (s : State) (ch : Channel), s.channel? s.active = some ch → ch.a.length ≤ Config.maxLen → ch.b.length ≤ Config.maxLen →
    (ch.a = [] → exec .decryptAes256 s = .next (completed s 0x01 0x11 [])) ∧
    (1 ≤ ch.a.length → ch.a.length ≤ 16 → exec .decryptAes256 s = .next (completed s 0x03 0x01 [])) ∧
    (16 < ch.a.length → ch.b = [] → exec .decryptAes256 s = .next (completed s 0x01 0x12 [])) ∧
    (16 < ch.a.length → ch.b ≠ [] → ch.b.length ∉ [16, 24, 32] →
      exec .decryptAes256 s = .next (completed s 0x01 0x22 [])) ∧
    (16 < ch.a.length → ch.b.length ∈ [16, 24, 32] →
      (ch.a.length % 16 ≠ 0 ∨ pkcs7UnpadBytes (cbcDecrypt (ch.a.drop 16) ch.b (ch.a.take 16)) = none) →
      exec .decryptAes256 s = .next (completed s 0x04 0x00 []))

/-- R262, R270, R272, R283: the same for DECRYPT_PHRASE, whose only key fault is an empty phrase. -/
def Obligations.DecryptPhraseReportsItsErrors : Prop :=
  ∀ (s : State) (ch : Channel), s.channel? s.active = some ch → ch.a.length ≤ Config.maxLen → ch.b.length ≤ Config.maxLen →
    ch.c.length ≤ Config.maxLen →
    (ch.a = [] → exec .decryptPhraseAes256 s = .next (completed s 0x01 0x11 [])) ∧
    (1 ≤ ch.a.length → ch.a.length ≤ 16 → exec .decryptPhraseAes256 s = .next (completed s 0x03 0x01 [])) ∧
    (16 < ch.a.length → ch.b = [] → exec .decryptPhraseAes256 s = .next (completed s 0x01 0x12 [])) ∧
    (16 < ch.a.length → ch.b ≠ [] →
      (ch.a.length % 16 ≠ 0 ∨
        pkcs7UnpadBytes (cbcDecrypt (ch.a.drop 16) (kdf Config.params ch.b ch.c) (ch.a.take 16)) = none) →
      exec .decryptPhraseAes256 s = .next (completed s 0x04 0x00 []))

/-- R240, R241: once the operands fit, the CBC stage commands report the faults of A, then of B, then of C, EMPTY before
LENGTH. -/
def Obligations.CbcStagesReportTheirErrors : Prop :=
  ∀ (s : State) (ch : Channel) (i : Instr), s.channel? s.active = some ch → i = .aesCbcEncrypt ∨ i = .aesCbcDecrypt →
    ch.a.length ≤ Config.maxLen → ch.b.length ≤ Config.maxLen → ch.c.length ≤ Config.maxLen →
    (ch.a = [] → exec i s = .next (completed s 0x01 0x11 [])) ∧
    (ch.a.length % 16 ≠ 0 → exec i s = .next (completed s 0x01 0x21 [])) ∧
    (ch.a ≠ [] → ch.a.length % 16 = 0 → ch.b = [] → exec i s = .next (completed s 0x01 0x12 [])) ∧
    (ch.a ≠ [] → ch.a.length % 16 = 0 → ch.b ≠ [] → ch.b.length ∉ [16, 24, 32] →
      exec i s = .next (completed s 0x01 0x22 [])) ∧
    (ch.a ≠ [] → ch.a.length % 16 = 0 → ch.b.length ∈ [16, 24, 32] → ch.c = [] →
      exec i s = .next (completed s 0x01 0x13 [])) ∧
    (ch.a ≠ [] → ch.a.length % 16 = 0 → ch.b.length ∈ [16, 24, 32] → ch.c ≠ [] → ch.c.length ≠ 16 →
      exec i s = .next (completed s 0x01 0x23 []))

/-- R200, R242, R243, R244: the errors of the other stage commands. PKCS7_PAD has TOO_LONG only. -/
def Obligations.OtherStagesReportTheirErrors : Prop :=
  ∀ (s : State) (ch : Channel), s.channel? s.active = some ch →
    (Config.maxLen < ch.b.length → exec .aesKeyExpand s = .next (completed s 0x01 0x32 [])) ∧
    (ch.b = [] → exec .aesKeyExpand s = .next (completed s 0x01 0x12 [])) ∧
    (ch.b ≠ [] → ch.b.length ∉ [16, 24, 32] → ch.b.length ≤ Config.maxLen →
      exec .aesKeyExpand s = .next (completed s 0x01 0x22 [])) ∧
    (Config.maxLen < ch.a.length → exec .pkcs7Pad s = .next (completed s 0x01 0x31 [])) ∧
    (ch.a = [] → exec .pkcs7Unpad s = .next (completed s 0x01 0x11 [])) ∧
    (ch.a.length % 16 ≠ 0 → ch.a.length ≤ Config.maxLen → exec .pkcs7Unpad s = .next (completed s 0x01 0x21 [])) ∧
    (ch.a ≠ [] → ch.a.length % 16 = 0 → ch.a.length ≤ Config.maxLen →
      (¬ ∃ (d : Bytes) (n : Nat), 1 ≤ n ∧ n ≤ 16 ∧ ch.a = d ++ List.replicate n (BitVec.ofNat 8 n)) →
      exec .pkcs7Unpad s = .next (completed s 0x04 0x00 [])) ∧
    (ch.a.length ≤ Config.maxLen → ch.c = [] → exec .ivPrepend s = .next (completed s 0x01 0x13 [])) ∧
    (ch.a.length ≤ Config.maxLen → ch.c ≠ [] → ch.c.length ≠ 16 → ch.c.length ≤ Config.maxLen →
      exec .ivPrepend s = .next (completed s 0x01 0x23 []))

/-! ### Rules about every command and every step -/

/-- R80, R306: the EXECUTE step of ANY 32-bit word with ANY operands reports the first error of the priority table, or the
result; the table is written out above (`Claim.run`), apart from the machine. The agenda and the draw counter are the model's
(logs 4 and 5), and that a reserved `OP` comes before a nonzero `RSV` is its reading (log 19). -/
def Obligations.ExecuteFollowsThePriorityTable : Prop :=
  ∀ (s : State) (k : Nat) (rest : List Move) (ch : Channel),
    s.agenda = .execute k :: rest → s.channel? k = some ch → ch.busy = true →
    let r := Claim.run Config.params ch.cmd ch.a ch.b ch.c (Config.draw s.draws).toList
    step s = .next
      { s with
        agenda := rest
        active := k
        channels := s.channels.set k (reported r.1 r.2.1 r.2.2.1)
        draws := s.draws + r.2.2.2 }

/-- R28, R29, R31: the frame of every command. It names all thirteen: whatever the command, it leaves every other channel, the
agenda, the host's replies and the turn as they were, and its own channel reported. Draws: see the next statement. -/
def Obligations.CommandsLeaveEverythingElseUnchanged : Prop :=
  ∀ (i : Instr) (s t : State), exec i s = .next t →
    t.agenda = s.agenda ∧ t.replies = s.replies ∧ t.active = s.active ∧ t.channels.length = s.channels.length ∧
    (∀ k, k ≠ s.active → t.channel? k = s.channel? k) ∧
    ∃ (status info : Byte) (out : Bytes), t.channel? s.active = some (reported status info out)

/-- R264, R303: a draw is taken by an encryption that succeeds, exactly one, and by nothing else. The counter of the draws is the
model's (log 4). -/
def Obligations.OnlySuccessfulEncryptionsTakeOneDraw : Prop :=
  ∀ (i : Instr) (s t : State) (ch : Channel), exec i s = .next t → t.channel? s.active = some ch →
    t.draws = s.draws + (if (i = .encryptAes256 ∨ i = .encryptPhraseAes256) ∧ ch.status = 0x00 then 1 else 0)

/-- R305: errors are precise: a command that ends in an error leaves its channel exactly as one that succeeds does, but that
`STATUS` and `INFO` carry the error and `OUT` is ε. -/
def Obligations.ErrorsArePrecise : Prop :=
  ∀ (i j : Instr) (s t u : State) (failed succeeded : Channel),
    exec i s = .next t → t.channel? s.active = some failed → failed.status ≠ 0x00 →
    exec j s = .next u → u.channel? s.active = some succeeded → succeeded.status = 0x00 →
    failed = { succeeded with status := failed.status, info := failed.info, out := [] } ∧
    ∀ k, k ≠ s.active → t.channel? k = u.channel? k

/-- R25, R26, R27, R30, R31, R32: an invariant of every step: `N_CHANNELS` channels, only legal (`STATUS`, `INFO`) pairs, no
result beside an error, nothing reported while busy or after COLLECT, nothing latched while idle. -/
def Obligations.EveryStepKeepsTheInvariant : Prop :=
  ∀ (s t : State), s.Inv → step s = .next t → t.Inv

/-- R20, R35: the machine right after reset meets the invariant. -/
def Obligations.ResetMeetsTheInvariant : Prop := State.reset.Inv

/-- R355, over the model's agendas (log 17): from any state whose agenda names channels of the block, within
2·(moves) + (busy channels) steps every move has been made and every submitted command is done. -/
def Obligations.EverySubmittedCommandCompletes : Prop :=
  ∀ (s : State), s.agendaInRange → ∃ t : State, Host.Core.run Sys2Proof.core (pendingWork s) s = .next t ∧ t.quiet

/-- R312: nothing is refused, and a step faults only at a move that names no channel (log 10): where the agenda is in range
the step answers a next state, and the agenda stays in range. -/
def Obligations.StepAlwaysGoesOnWhereMovesAreInRange : Prop :=
  ∀ (s : State), (∀ r, step s ≠ .refused r) ∧ (s.agendaInRange → ∃ t : State, step s = .next t ∧ t.agendaInRange)

/-- R29: a command's report depends on its own latched operands, the parameters and its draw: two states that agree in these,
and in nothing else, get the same channel. The draw counter is the model's (log 4). -/
def Obligations.ResultDependsOnlyOnOwnChannelAndDraw : Prop :=
  ∀ (i : Instr) (s s' t t' : State), s.channel? s.active = s'.channel? s'.active → s.draws = s'.draws →
    exec i s = .next t → exec i s' = .next t' → t.channel? s.active = t'.channel? s'.active ∧ t.draws = t'.draws

/-- R61: two channels may execute in either order: where one of them takes no draw, both orders end in the same channels.
The agenda and the draw counter are the model's (logs 4 and 5). -/
def Obligations.ExecutionsOnTwoChannelsCommute : Prop :=
  ∀ (s t t' : State) (j k : Nat), j ≠ k →
    (∀ (ch : Channel) (i : Instr), s.channel? j = some ch → decode ch.cmd = .ok i → takesDraw i = false) →
    Host.Core.run Sys2Proof.core 2 ({ s with agenda := [.execute j, .execute k] } : State) = .next t →
    Host.Core.run Sys2Proof.core 2 ({ s with agenda := [.execute k, .execute j] } : State) = .next t' →
    t.channels = t'.channels ∧ t.draws = t'.draws

/-- R22, R79: an operand that a command does not read is ignored: any value gives the same result. -/
def Obligations.UnreadOperandsAreIgnored : Prop :=
  ∀ (p : Params) (i : Instr) (a b c a' b' c' iv : Bytes),
    (∀ x ∈ reads i, operand x a b c = operand x a' b' c') →
    commandResult p i a b c iv = commandResult p i a' b' c' iv

/-- R307: every error but the decryption failure depends on the lengths of the operands only, never on what they hold. -/
def Obligations.ChecksDependOnLengthsOnly : Prop :=
  ∀ (p : Params) (i : Instr) (a b c iv a' b' c' iv' : Bytes) (e : CommandError),
    a.length = a'.length → b.length = b'.length → c.length = c'.length → e ≠ .decryptionFailure →
    commandResult p i a b c iv = .error e → commandResult p i a' b' c' iv' = .error e

/-- R77: a command meets the length constraints of the operand table exactly when it raises no error but, at most, a
decryption failure. -/
def Obligations.WellFormedCommandsRaiseNoInputError : Prop :=
  ∀ (p : Params) (i : Instr) (a b c iv : Bytes),
    WellFormed p i a b c = true ↔ ∀ e, commandResult p i a b c iv = .error e → e = .decryptionFailure

/-- R77: the length of `OUT` on success, for each command. -/
def Obligations.ResultsHaveTheTabledLengths : Prop :=
  ∀ (p : Params) (i : Instr) (a b c iv out : Bytes), iv.length = 16 → commandResult p i a b c iv = .ok out →
    match i with
    | .digestSha256 | .deriveKeyAes256 => out.length = 32
    | .digestSha512 => out.length = 64
    | .encryptAes256 | .encryptPhraseAes256 => out.length = 16 + 16 * (a.length / 16 + 1)
    | .decryptAes256 | .decryptPhraseAes256 => ∃ n, 1 ≤ n ∧ n ≤ 16 ∧ out.length + 16 + n = a.length
    | .aesKeyExpand => (b.length = 16 → out.length = 176) ∧ (b.length = 24 → out.length = 208) ∧
        (b.length = 32 → out.length = 240)
    | .aesCbcEncrypt | .aesCbcDecrypt => out.length = a.length
    | .pkcs7Pad => out.length = 16 * (a.length / 16 + 1)
    | .pkcs7Unpad => ∃ n, 1 ≤ n ∧ n ≤ 16 ∧ out.length + n = a.length
    | .ivPrepend => out.length = 16 + a.length

/-! ### The sub-blocks -/

/-- R103, R121: the padding of a message: the least number of zeros, the length in bits, a whole number of blocks. -/
def Obligations.HashPaddingIsTheLeastThatFillsBlocks : Prop :=
  ∀ (m : Bytes),
    (∃ k, fills 64 56 m.length k ∧ (∀ j, j < k → ¬ fills 64 56 m.length j) ∧
      pad256 m = m ++ [0x80] ++ List.replicate k 0x00 ++ bytesBE 8 (8 * m.length) ∧ (pad256 m).length % 64 = 0) ∧
    (∃ k, fills 128 112 m.length k ∧ (∀ j, j < k → ¬ fills 128 112 m.length j) ∧
      pad512 m = m ++ [0x80] ++ List.replicate k 0x00 ++ bytesBE 16 (8 * m.length) ∧ (pad512 m).length % 128 = 0)

/-- R106, R125: the message schedules: the first sixteen words are the block's, and every later word is the sum the rule
gives of four words before it. -/
def Obligations.SchedulesFollowTheirRecurrence : Prop :=
  (∀ (block : List (BitVec 32)), block.length = 16 →
    let w := shaExtend sha256SmallSigma0 sha256SmallSigma1 48 block
    w.length = 64 ∧ w.take 16 = block ∧
    ∀ t, 16 ≤ t → t < 64 → w.getD t 0 =
      sha256SmallSigma1 (w.getD (t - 2) 0) + w.getD (t - 7) 0 + sha256SmallSigma0 (w.getD (t - 15) 0) + w.getD (t - 16) 0) ∧
  (∀ (block : List (BitVec 64)), block.length = 16 →
    let w := shaExtend sha512SmallSigma0 sha512SmallSigma1 64 block
    w.length = 80 ∧ w.take 16 = block ∧
    ∀ t, 16 ≤ t → t < 80 → w.getD t 0 =
      sha512SmallSigma1 (w.getD (t - 2) 0) + w.getD (t - 7) 0 + sha512SmallSigma0 (w.getD (t - 15) 0) + w.getD (t - 16) 0)

/-- R150, R155: key derivation: an empty salt derives the key of the default salt, and only the concatenation counts. -/
def Obligations.KeyDerivationSeesOnlyTheConcatenation : Prop :=
  ∀ (p : Params) (phrase phrase' salt salt' : Bytes),
    kdf p phrase [] = kdf p phrase p.defaultSalt ∧
    (phrase ++ effectiveSalt p salt = phrase' ++ effectiveSalt p salt' → kdf p phrase salt = kdf p phrase' salt') ∧
    kdf p [0x61, 0x62] [0x63] = kdf p [0x61] [0x62, 0x63]

/-- R178: InvMixColumns undoes MixColumns on every AES state. -/
def Obligations.InvMixColumnsUndoesMixColumns : Prop :=
  ∀ (s : Bytes), s.length = 16 → invMixColumns (mixColumns s) = s

/-- R182: the round-key words: the first Nk are the key's, and every later one follows the rule's recurrence. -/
def Obligations.KeyExpansionFollowsItsRecurrence : Prop :=
  ∀ (k : Bytes) (nk nr : Nat),
    (k.length = 16 ∧ nk = 4 ∧ nr = 10) ∨ (k.length = 24 ∧ nk = 6 ∧ nr = 12) ∨ (k.length = 32 ∧ nk = 8 ∧ nr = 14) →
    let w := keyExpansion k
    w.length = 4 * (nr + 1) ∧
    (∀ i, i < nk → w.getD i [] = [k.getD (4 * i) 0, k.getD (4 * i + 1) 0, k.getD (4 * i + 2) 0, k.getD (4 * i + 3) 0]) ∧
    ∀ i, nk ≤ i → i < 4 * (nr + 1) →
      let temp := w.getD (i - 1) []
      w.getD i [] = xorBytes (w.getD (i - nk) [])
        (if i % nk = 0 then xorBytes (subWord (rotWord temp)) (rcon (i / nk))
         else if nk = 8 ∧ i % 8 = 4 then subWord temp
         else temp)

/-- R192: under every key of a legal length the block cipher and the inverse cipher undo each other on every block. -/
def Obligations.BlockCipherAndInverseUndoEachOther : Prop :=
  ∀ (k x : Bytes), k.length = 16 ∨ k.length = 24 ∨ k.length = 32 → x.length = 16 →
    aesDecrypt (aesEncrypt x (keyExpansion k)) (keyExpansion k) = x ∧
    aesEncrypt (aesDecrypt x (keyExpansion k)) (keyExpansion k) = x

/-- R222, first property: CBC decryption undoes CBC encryption under the same key and IV. -/
def Obligations.CbcDecryptionUndoesEncryption : Prop :=
  ∀ (p k iv : Bytes), k.length = 16 ∨ k.length = 24 ∨ k.length = 32 → iv.length = 16 → p ≠ [] → p.length % 16 = 0 →
    cbcDecrypt (cbcEncrypt p k iv) k iv = p

/-- R222, second property: decrypting under another IV changes the first block only, by the ⊕ of the two IVs. -/
def Obligations.AnotherIvChangesTheFirstBlockOnly : Prop :=
  ∀ (c k iv iv' : Bytes), k.length = 16 ∨ k.length = 24 ∨ k.length = 32 → iv.length = 16 → iv'.length = 16 → c ≠ [] →
    c.length % 16 = 0 →
    (cbcDecrypt c k iv').take 16 = xorBytes (xorBytes ((cbcDecrypt c k iv).take 16) iv) iv' ∧
    (cbcDecrypt c k iv').drop 16 = (cbcDecrypt c k iv).drop 16

/-- R232: unpadding accepts exactly the strings that end in n bytes of value n, 1 ≤ n ≤ 16, and returns what stands before. -/
def Obligations.UnpadAcceptsExactlyValidPads : Prop :=
  ∀ (x d : Bytes), x ≠ [] → x.length % 16 = 0 →
    (pkcs7UnpadBytes x = some d ↔ ∃ n, 1 ≤ n ∧ n ≤ 16 ∧ x = d ++ List.replicate n (BitVec.ofNat 8 n))

/-- R233: unpadding undoes padding; it also takes any whole blocks that end in 0x01, and sixteen 0x10 bytes leave nothing. -/
def Obligations.UnpadUndoesPad : Prop :=
  (∀ d : Bytes, pkcs7UnpadBytes (pkcs7PadBytes d) = some d) ∧
  (∀ x : Bytes, (x ++ [0x01]).length % 16 = 0 → pkcs7UnpadBytes (x ++ [0x01]) = some x) ∧
  pkcs7UnpadBytes (List.replicate 16 0x10) = some []

/-- R231, R261: padded lengths, and the length of an envelope: 16 + paddedLength, at least 32, a multiple of 16. -/
def Obligations.PaddedAndEnvelopeLengths : Prop :=
  ∀ (d k iv : Bytes), iv.length = 16 →
    (pkcs7PadBytes d).length = paddedLength d.length ∧ paddedLength d.length = 16 * (d.length / 16 + 1) ∧
    (encryptEnvelope d k iv).length = 16 + paddedLength d.length ∧
    32 ≤ (encryptEnvelope d k iv).length ∧ (encryptEnvelope d k iv).length % 16 = 0

/-- R285: for every draw, every plaintext that leaves the envelope within `MAX_LEN` and every key, decryption gives the
plaintext back, with a raw key and with a phrase and salt that the commands accept; the envelope starts with the draw. -/
def Obligations.DecryptionReturnsWhatWasEncrypted : Prop :=
  ∀ (plain key phrase salt other iv : Bytes), iv.length = 16 → plain ≠ [] → plain.length + 32 ≤ Config.maxLen →
    (key.length = 16 ∨ key.length = 24 ∨ key.length = 32 →
      ∃ e, runEncryptAes256 Config.params plain key other iv = .ok e ∧
        runDecryptAes256 Config.params e key other = .ok plain ∧
        e.length = 16 + paddedLength plain.length ∧ e.take 16 = iv) ∧
    (phrase ≠ [] → phrase.length ≤ Config.maxLen → salt.length ≤ Config.maxLen →
      ∃ e, runEncryptPhraseAes256 Config.params plain phrase salt iv = .ok e ∧
        runDecryptPhraseAes256 Config.params e phrase salt = .ok plain ∧
        e.length = 16 + paddedLength plain.length ∧ e.take 16 = iv)

/-- R262, R281: encrypting under a phrase is encrypting under the key derived from it, with the same draw. -/
def Obligations.PhraseEncryptionIsEncryptionUnderDerivedKey : Prop :=
  ∀ (a b c other iv : Bytes), b ≠ [] → b.length ≤ Config.maxLen → c.length ≤ Config.maxLen →
    runEncryptPhraseAes256 Config.params a b c iv = runEncryptAes256 Config.params a (kdf Config.params b c) other iv

/-- R234, R240, R242, R244, R266: the stage commands, one after the other, make the envelope that ENCRYPT makes. -/
def Obligations.StagesComposeToEncryption : Prop :=
  ∀ (a k iv : Bytes), a ≠ [] → iv.length = 16 → k.length = 16 ∨ k.length = 24 ∨ k.length = 32 →
    ∃ p c e, cmdPad a = .ok p ∧ cmdCbcEncrypt p k iv = .ok c ∧ cmdIvPrepend c iv = .ok e ∧ cmdEncrypt a k iv = .ok e
end

