-- ==== Sys2Proof/Laws/Aes.lean ====
section
/-! SUPPORT. Small laws of the AES tables and of the 4×4 state: lengths, cells, and the inverse S-box (R173, R174). -/

namespace Sys2Proof.Machine

/-- R174: the inverse S-box undoes the S-box. -/
theorem invSbox_sbox : ∀ b : Byte, invSbox (sbox b) = b := by decide +kernel

/-- R174: and the S-box undoes the inverse S-box. -/
theorem sbox_invSbox : ∀ b : Byte, sbox (invSbox b) = b := by decide +kernel

/-- R170, R173: the S-box table holds A(b⁻¹): the byte b whose entry is A(x) has b • x = 0x01, for every x but 0; and the entry
of 0 is A(0). -/
theorem sbox_eq_affine_inverse :
    sbox 0 = sboxAffine 0 ∧ ∀ x : Byte, x = 0 ∨ gfMul (invSbox (sboxAffine x)) x = 1 := by decide +kernel

@[simp] theorem ofCells_length (f : (r c : Nat) → Byte) : (ofCells f).length = 16 := by simp [ofCells]

/-- Reading a cell of a state given by its cells. -/
theorem cell_ofCells (f : (r c : Nat) → Byte) {r c : Nat} (hr : r < 4) (hc : c < 4) : cell (ofCells f) r c = f r c := by
  have h : r + 4 * c < 16 := by omega
  have h4 : (r + 4 * c) % 4 = r := by omega
  have hd : (r + 4 * c) / 4 = c := by omega
  simp [cell, ofCells, List.getD, List.getElem?_map, List.getElem?_range h, h4, hd]

/-- R172: a state of sixteen bytes is given by its cells. -/
theorem ofCells_cell {s : Bytes} (h : s.length = 16) : (ofCells fun r c => cell s r c) = s := by
  apply List.ext_getElem
  · simp [h]
  · intro i h1 h2
    have hi : i < 16 := by simpa using h1
    have hmod : i % 4 + 4 * (i / 4) = i := by omega
    simp [ofCells, cell, hmod, List.getD, h2]

@[simp] theorem addRoundKey_length (w : List Bytes) (round : Nat) (s : Bytes) : (addRoundKey w round s).length = 16 := by
  simp [addRoundKey]

@[simp] theorem shiftRows_length (s : Bytes) : (shiftRows s).length = 16 := by simp [shiftRows]

@[simp] theorem invShiftRows_length (s : Bytes) : (invShiftRows s).length = 16 := by simp [invShiftRows]

@[simp] theorem subBytes_length (s : Bytes) : (subBytes s).length = s.length := by simp [subBytes]

@[simp] theorem invSubBytes_length (s : Bytes) : (invSubBytes s).length = s.length := by simp [invSubBytes]

@[simp] theorem mixColumns_length (s : Bytes) : (mixColumns s).length = 16 := by
  simp [mixColumns, mapColumns, mixColumn]

@[simp] theorem invMixColumns_length (s : Bytes) : (invMixColumns s).length = 16 := by
  simp [invMixColumns, mapColumns, invMixColumn]

@[simp] theorem aesEncrypt_length (x : Bytes) (w : List Bytes) : (aesEncrypt x w).length = 16 := by simp [aesEncrypt]

@[simp] theorem aesDecrypt_length (x : Bytes) (w : List Bytes) : (aesDecrypt x w).length = 16 := by simp [aesDecrypt]

end Sys2Proof.Machine
end

