-- ==== Sys2Proof/Laws/Operands.lean ====
section
/-! SUPPORT. What a check says: raiseIf, the size check and the operand checks, each as a condition. -/

namespace Sys2Proof.Machine

@[simp] theorem raiseIf_true (e : CommandError) : raiseIf true e = .error e := rfl

@[simp] theorem raiseIf_false (e : CommandError) : raiseIf false e = .ok () := rfl

/-- A check goes on exactly where its condition does not hold. -/
theorem raiseIf_eq_ok {q : Bool} {e : CommandError} {u : Unit} : raiseIf q e = .ok u ↔ q = false := by
  cases q <;> simp

/-- A check raises exactly its own error. -/
theorem raiseIf_eq_error {q : Bool} {e d : CommandError} : raiseIf q e = .error d ↔ q = true ∧ e = d := by
  cases q <;> simp

@[simp] theorem except_ok_bind {ε α β : Type} (x : α) (f : α → Except ε β) : ((Except.ok x : Except ε α) >>= f) = f x := rfl

@[simp] theorem except_error_bind {ε α β : Type} (e : ε) (f : α → Except ε β) :
    ((Except.error e : Except ε α) >>= f) = .error e := rfl

/-- A sequence goes through exactly when both parts do. -/
theorem bind_eq_ok {ε α β : Type} {x : Except ε α} {f : α → Except ε β} {b : β} :
    (x >>= f) = .ok b ↔ ∃ a, x = .ok a ∧ f a = .ok b := by
  cases x <;> simp

/-- A sequence raises the error of its first part, or, that part gone through, of its second. -/
theorem bind_eq_error {ε α β : Type} {x : Except ε α} {f : α → Except ε β} {e : ε} :
    (x >>= f) = .error e ↔ x = .error e ∨ ∃ a, x = .ok a ∧ f a = .error e := by
  cases x <;> simp

/-- The size check goes through exactly when every operand read fits. -/
theorem checkSizes_eq_ok {p : Params} {a b c : Bytes} {xs : List OperandName} {u : Unit} :
    checkSizes p a b c xs = .ok u ↔ ∀ x ∈ xs, (operand x a b c).length ≤ p.maxLen := by
  induction xs with
  | nil => simp [checkSizes]
  | cons x xs ih => simp [checkSizes, bind_eq_ok, raiseIf_eq_ok, ih]

/-- The size check raises nothing but TOO_LONG. -/
theorem checkSizes_error {p : Params} {a b c : Bytes} {xs : List OperandName} {e : CommandError}
    (h : checkSizes p a b c xs = .error e) : ∃ x ∈ xs, e = .inputValidation .tooLong x := by
  induction xs with
  | nil => simp [checkSizes] at h
  | cons x xs ih =>
    rw [checkSizes, bind_eq_error] at h
    rcases h with h | ⟨_, -, h⟩
    · exact ⟨x, by simp, (raiseIf_eq_error.1 h).2.symm⟩
    · obtain ⟨y, hy, he⟩ := ih h
      exact ⟨y, by simp [hy], he⟩

theorem requireNonEmpty_eq_ok {x : OperandName} {v : Bytes} {u : Unit} :
    requireNonEmpty x v = .ok u ↔ v ≠ [] := by
  simp [requireNonEmpty, raiseIf_eq_ok]

theorem legalKeyLength_iff {n : Nat} : legalKeyLength n = true ↔ n = 16 ∨ n = 24 ∨ n = 32 := by
  simp [legalKeyLength, or_assoc]

/-- The raw key check goes through exactly for the legal lengths. -/
theorem requireRawKey_eq_ok {b : Bytes} {u : Unit} : requireRawKey b = .ok u ↔ legalKeyLength b.length = true := by
  simp only [requireRawKey, bind_eq_ok, requireNonEmpty_eq_ok, raiseIf_eq_ok, Bool.not_eq_false', exists_const,
    and_iff_right_iff_imp]
  rintro h rfl
  simp [legalKeyLength] at h

theorem requireWholeBlocks_eq_ok {a : Bytes} {u : Unit} :
    requireWholeBlocks a = .ok u ↔ wholeBlocks a.length = true := by
  simp [requireWholeBlocks, bind_eq_ok, requireNonEmpty_eq_ok, raiseIf_eq_ok, wholeBlocks]

theorem requireIv_eq_ok {c : Bytes} {u : Unit} : requireIv c = .ok u ↔ c.length = 16 := by
  simp only [requireIv, bind_eq_ok, requireNonEmpty_eq_ok, raiseIf_eq_ok, exists_const]
  constructor
  · simp
  · intro h
    refine ⟨?_, by simp [h]⟩
    rintro rfl
    simp at h

theorem checkEnvelope_eq_ok {a : Bytes} {u : Unit} : checkEnvelope a = .ok u ↔ 16 < a.length := by
  simp only [checkEnvelope, bind_eq_ok, requireNonEmpty_eq_ok, raiseIf_eq_ok, exists_const, decide_eq_false_iff_not,
    Nat.not_le, and_iff_right_iff_imp]
  rintro h rfl
  simp at h

end Sys2Proof.Machine
end

