-- ==== Sys2Proof/Laws/State.lean ====
section
/-! SUPPORT. One lemma per field per update of State and of Channel, each true by rfl. -/

namespace Sys2Proof.Machine

@[simp] theorem State.setChannel_channels (s : State) (k : Nat) (ch : Channel) : (s.setChannel k ch).channels = s.channels.set k ch := rfl
@[simp] theorem State.setChannel_agenda (s : State) (k : Nat) (ch : Channel) : (s.setChannel k ch).agenda = s.agenda := rfl
@[simp] theorem State.setChannel_replies (s : State) (k : Nat) (ch : Channel) : (s.setChannel k ch).replies = s.replies := rfl
@[simp] theorem State.setChannel_active (s : State) (k : Nat) (ch : Channel) : (s.setChannel k ch).active = s.active := rfl
@[simp] theorem State.setChannel_draws (s : State) (k : Nat) (ch : Channel) : (s.setChannel k ch).draws = s.draws := rfl

@[simp] theorem State.nextMove_channels (s : State) : s.nextMove.channels = s.channels := rfl
@[simp] theorem State.nextMove_agenda (s : State) : s.nextMove.agenda = s.agenda.tail := rfl
@[simp] theorem State.nextMove_replies (s : State) : s.nextMove.replies = s.replies := rfl
@[simp] theorem State.nextMove_active (s : State) : s.nextMove.active = s.active := rfl
@[simp] theorem State.nextMove_draws (s : State) : s.nextMove.draws = s.draws := rfl

@[simp] theorem State.hand_channels (s : State) (r : Reply) : (s.hand r).channels = s.channels := rfl
@[simp] theorem State.hand_agenda (s : State) (r : Reply) : (s.hand r).agenda = s.agenda := rfl
@[simp] theorem State.hand_replies (s : State) (r : Reply) : (s.hand r).replies = s.replies ++ [r] := rfl
@[simp] theorem State.hand_active (s : State) (r : Reply) : (s.hand r).active = s.active := rfl
@[simp] theorem State.hand_draws (s : State) (r : Reply) : (s.hand r).draws = s.draws := rfl

@[simp] theorem resetBlock_channels (s : State) : (resetBlock s).channels = s.channels.map fun _ => Channel.reset := rfl
@[simp] theorem resetBlock_agenda (s : State) : (resetBlock s).agenda = s.agenda := rfl
@[simp] theorem resetBlock_replies (s : State) : (resetBlock s).replies = s.replies := rfl
@[simp] theorem resetBlock_active (s : State) : (resetBlock s).active = s.active := rfl
@[simp] theorem resetBlock_draws (s : State) : (resetBlock s).draws = s.draws := rfl

@[simp] theorem State.reset_channels : State.reset.channels = List.replicate Config.nChannels Channel.reset := rfl
@[simp] theorem State.reset_agenda : State.reset.agenda = [] := rfl
@[simp] theorem State.reset_replies : State.reset.replies = [] := rfl
@[simp] theorem State.reset_active : State.reset.active = 0 := rfl
@[simp] theorem State.reset_draws : State.reset.draws = 0 := rfl

@[simp] theorem Channel.executed_cmd (r : Completion) : (Channel.executed r).cmd = 0 := rfl
@[simp] theorem Channel.executed_a (r : Completion) : (Channel.executed r).a = [] := rfl
@[simp] theorem Channel.executed_b (r : Completion) : (Channel.executed r).b = [] := rfl
@[simp] theorem Channel.executed_c (r : Completion) : (Channel.executed r).c = [] := rfl
@[simp] theorem Channel.executed_busy (r : Completion) : (Channel.executed r).busy = false := rfl
@[simp] theorem Channel.executed_resultValid (r : Completion) : (Channel.executed r).resultValid = true := rfl
@[simp] theorem Channel.executed_status (r : Completion) : (Channel.executed r).status = r.status := rfl
@[simp] theorem Channel.executed_info (r : Completion) : (Channel.executed r).info = r.info := rfl
@[simp] theorem Channel.executed_out (r : Completion) : (Channel.executed r).out = if r.status = statusOk then r.out else [] := rfl

@[simp] theorem Channel.submitted_cmd (cmd : CommandWord) (a b c : Bytes) :
    (Channel.submitted cmd a b c).cmd = cmd := rfl
@[simp] theorem Channel.submitted_a (cmd : CommandWord) (a b c : Bytes) :
    (Channel.submitted cmd a b c).a = a := rfl
@[simp] theorem Channel.submitted_b (cmd : CommandWord) (a b c : Bytes) :
    (Channel.submitted cmd a b c).b = b := rfl
@[simp] theorem Channel.submitted_c (cmd : CommandWord) (a b c : Bytes) :
    (Channel.submitted cmd a b c).c = c := rfl
@[simp] theorem Channel.submitted_busy (cmd : CommandWord) (a b c : Bytes) :
    (Channel.submitted cmd a b c).busy = true := rfl
@[simp] theorem Channel.submitted_resultValid (cmd : CommandWord) (a b c : Bytes) :
    (Channel.submitted cmd a b c).resultValid = false := rfl
@[simp] theorem Channel.submitted_status (cmd : CommandWord) (a b c : Bytes) :
    (Channel.submitted cmd a b c).status = 0 := rfl
@[simp] theorem Channel.submitted_info (cmd : CommandWord) (a b c : Bytes) :
    (Channel.submitted cmd a b c).info = 0 := rfl
@[simp] theorem Channel.submitted_out (cmd : CommandWord) (a b c : Bytes) :
    (Channel.submitted cmd a b c).out = [] := rfl

@[simp] theorem Channel.collected_cmd (ch : Channel) : ch.collected.cmd = ch.cmd := rfl
@[simp] theorem Channel.collected_a (ch : Channel) : ch.collected.a = ch.a := rfl
@[simp] theorem Channel.collected_b (ch : Channel) : ch.collected.b = ch.b := rfl
@[simp] theorem Channel.collected_c (ch : Channel) : ch.collected.c = ch.c := rfl
@[simp] theorem Channel.collected_busy (ch : Channel) : ch.collected.busy = ch.busy := rfl
@[simp] theorem Channel.collected_resultValid (ch : Channel) : ch.collected.resultValid = false := rfl
@[simp] theorem Channel.collected_status (ch : Channel) : ch.collected.status = 0 := rfl
@[simp] theorem Channel.collected_info (ch : Channel) : ch.collected.info = 0 := rfl
@[simp] theorem Channel.collected_out (ch : Channel) : ch.collected.out = [] := rfl

@[simp] theorem Channel.reset_cmd : Channel.reset.cmd = 0 := rfl
@[simp] theorem Channel.reset_a : Channel.reset.a = [] := rfl
@[simp] theorem Channel.reset_b : Channel.reset.b = [] := rfl
@[simp] theorem Channel.reset_c : Channel.reset.c = [] := rfl
@[simp] theorem Channel.reset_busy : Channel.reset.busy = false := rfl
@[simp] theorem Channel.reset_resultValid : Channel.reset.resultValid = false := rfl
@[simp] theorem Channel.reset_status : Channel.reset.status = 0 := rfl
@[simp] theorem Channel.reset_info : Channel.reset.info = 0 := rfl
@[simp] theorem Channel.reset_out : Channel.reset.out = [] := rfl

@[simp] theorem Completion.ofResult_ok (out : Bytes) :
    Completion.ofResult (.ok out) = ⟨statusOk, 0x00, out⟩ := rfl

@[simp] theorem Completion.ofResult_error (e : CommandError) :
    Completion.ofResult (.error e) = ⟨errorStatus e, errorInfo e, []⟩ := rfl

@[simp] theorem drawsTaken_ok (out : Bytes) : drawsTaken (.ok out) = 1 := rfl

@[simp] theorem drawsTaken_error (e : CommandError) : drawsTaken (.error e) = 0 := rfl

/-- An error's status is never that of success. -/
theorem errorStatus_ne_ok (e : CommandError) : errorStatus e ≠ statusOk := by cases e <;> simp [errorStatus, statusOk]

/-- Looking up a channel after one was written. -/
theorem State.channel?_setChannel (s : State) (k j : Nat) (ch : Channel) :
    (s.setChannel k ch).channel? j = if k = j then (s.channel? j).map fun _ => ch else s.channel? j := by
  simp only [State.channel?, State.setChannel_channels, List.getElem?_set]
  split
  · subst_vars
    split <;> simp_all
  · rfl

/-- Writing one channel leaves every other as it was. -/
theorem State.channel?_setChannel_ne (s : State) {k j : Nat} (ch : Channel) (h : k ≠ j) :
    (s.setChannel k ch).channel? j = s.channel? j := by
  simp [State.channel?_setChannel, h]

/-- The channel written is the one read back. -/
theorem State.channel?_setChannel_self (s : State) {k : Nat} {old : Channel} (ch : Channel)
    (h : s.channel? k = some old) : (s.setChannel k ch).channel? k = some ch := by
  simp [State.channel?_setChannel, h]

end Sys2Proof.Machine
end

