-- ==== Sys2Proof/Laws/Ops.lean ====
section
/-! SUPPORT. What each shared operation can do, said once: complete, completeDrawing, raiseError, exec, executeChannel. -/

namespace Sys2Proof.Machine

/-- An EXECUTE step without a draw, where there is an active channel. -/
theorem complete_eq_next {rule : (a b c : Bytes) → Except CommandError Bytes} {s : State} {ch : Channel}
    (h : s.channel? s.active = some ch) :
    complete rule s =
      .next (s.setChannel s.active (Channel.executed (Completion.ofResult (rule ch.a ch.b ch.c)))) := by
  simp [complete, h]

/-- An encryption's EXECUTE step, where there is an active channel. -/
theorem completeDrawing_eq_next {rule : (a b c iv : Bytes) → Except CommandError Bytes} {s : State} {ch : Channel}
    (h : s.channel? s.active = some ch) :
    completeDrawing rule s =
      .next { s.setChannel s.active (Channel.executed (Completion.ofResult (rule ch.a ch.b ch.c s.iv))) with
        draws := s.draws + drawsTaken (rule ch.a ch.b ch.c s.iv) } := by
  simp [completeDrawing, h]

/-- Raising an error, where there is an active channel. -/
theorem raiseError_eq_next {e : CommandError} {s : State} {ch : Channel} (h : s.channel? s.active = some ch) :
    raiseError e s = .next (s.setChannel s.active (Channel.executed ⟨errorStatus e, errorInfo e, []⟩)) := by
  simp [raiseError, complete, h]

/-- The draws a command takes. -/
def drawsOf (i : Instr) (r : Except CommandError Bytes) : Nat := if takesDraw i then drawsTaken r else 0

theorem drawsOf_le_one (i : Instr) (r : Except CommandError Bytes) : drawsOf i r ≤ 1 := by
  unfold drawsOf drawsTaken
  split
  · split <;> simp
  · simp

/-- Every command does the same to the machine but for its result and its draw. -/
theorem exec_eq_next {i : Instr} {s : State} {ch : Channel} (h : s.channel? s.active = some ch) :
    exec i s =
      .next { s.setChannel s.active
          (Channel.executed (Completion.ofResult (commandResult Config.params i ch.a ch.b ch.c s.iv))) with
        draws := s.draws + drawsOf i (commandResult Config.params i ch.a ch.b ch.c s.iv) } := by
  cases i
  case encryptAes256 => exact completeDrawing_eq_next h
  case encryptPhraseAes256 => exact completeDrawing_eq_next h
  all_goals exact complete_eq_next h

/-- A command whose channel does not exist faults. -/
theorem exec_eq_fault {i : Instr} {s : State} (h : s.channel? s.active = none) :
    exec i s = .fault (.noSuchChannel s.active) := by
  cases i <;>
    simp [exec, execDigestSha256, execDigestSha512, execDeriveKeyAes256, execEncryptAes256, execEncryptPhraseAes256,
      execDecryptAes256, execDecryptPhraseAes256, execAesKeyExpand, execAesCbcEncrypt, execAesCbcDecrypt, execPkcs7Pad,
      execPkcs7Unpad, execIvPrepend, complete, completeDrawing, h]

/-- The inversion lemma of exec: what a next state can be. -/
theorem exec_next_cases {i : Instr} {s t : State} (h : exec i s = .next t) :
    ∃ ch, s.channel? s.active = some ch ∧
      t = { s.setChannel s.active
          (Channel.executed (Completion.ofResult (commandResult Config.params i ch.a ch.b ch.c s.iv))) with
        draws := s.draws + drawsOf i (commandResult Config.params i ch.a ch.b ch.c s.iv) } := by
  cases hc : s.channel? s.active with
  | none => simp [exec_eq_fault hc] at h
  | some ch =>
    rw [exec_eq_next hc] at h
    exact ⟨ch, rfl, (Host.Outcome.next.inj h).symm⟩

/-- What the EXECUTE step of channel k can do, whatever its command word: the command's result, or the error of its word, is
written into channel k, `active` becomes k, and at most one draw is taken. -/
theorem executeChannel_eq_next {k : Nat} {ch : Channel} {s : State} (h : s.channel? k = some ch) :
    ∃ (r : Except CommandError Bytes) (d : Nat), d ≤ 1 ∧
      ((∃ i, decode ch.cmd = .ok i ∧ r = commandResult Config.params i ch.a ch.b ch.c s.iv ∧ d = drawsOf i r) ∨
        (∃ e, decode ch.cmd = .error e ∧ r = .error (decodeErrorOf e) ∧ d = 0)) ∧
      executeChannel k ch s = .next
        { s with
          channels := s.channels.set k (Channel.executed (Completion.ofResult r))
          active := k
          draws := s.draws + d } := by
  have h' : ({ s with active := k } : State).channel? ({ s with active := k } : State).active = some ch := h
  unfold executeChannel
  cases hd : decode ch.cmd with
  | ok i => exact ⟨_, _, drawsOf_le_one _ _, .inl ⟨i, rfl, rfl, rfl⟩, exec_eq_next h'⟩
  | error e => exact ⟨_, 0, by simp, .inr ⟨e, rfl, rfl, rfl⟩, raiseError_eq_next h'⟩

end Sys2Proof.Machine
end

