-- ==== Sys2Proof/Laws/PerInstr.lean ====
section
/-! SUPPORT. Statements about each command as syntax, one lemma per constructor. -/

namespace Sys2Proof.Laws.FixedWord

/-- R70, R74, R79: the command's word has `RSV` = 0 and an assigned `OP`, and the command reads each operand at most once. -/
def Statement (i : Instr) : Prop :=
  rsvField (encode i) = 0 ∧ (isTopLevel (opField (encode i)) || isStage (opField (encode i))) = true ∧
    (Sys2Proof.Machine.reads i).Nodup

theorem digestSha256 : Statement .digestSha256 := by refine ⟨?_, ?_, ?_⟩ <;> decide
theorem digestSha512 : Statement .digestSha512 := by refine ⟨?_, ?_, ?_⟩ <;> decide
theorem deriveKeyAes256 : Statement .deriveKeyAes256 := by refine ⟨?_, ?_, ?_⟩ <;> decide
theorem encryptAes256 : Statement .encryptAes256 := by refine ⟨?_, ?_, ?_⟩ <;> decide
theorem encryptPhraseAes256 : Statement .encryptPhraseAes256 := by refine ⟨?_, ?_, ?_⟩ <;> decide
theorem decryptAes256 : Statement .decryptAes256 := by refine ⟨?_, ?_, ?_⟩ <;> decide
theorem decryptPhraseAes256 : Statement .decryptPhraseAes256 := by refine ⟨?_, ?_, ?_⟩ <;> decide
theorem aesKeyExpand : Statement .aesKeyExpand := by refine ⟨?_, ?_, ?_⟩ <;> decide
theorem aesCbcEncrypt : Statement .aesCbcEncrypt := by refine ⟨?_, ?_, ?_⟩ <;> decide
theorem aesCbcDecrypt : Statement .aesCbcDecrypt := by refine ⟨?_, ?_, ?_⟩ <;> decide
theorem pkcs7Pad : Statement .pkcs7Pad := by refine ⟨?_, ?_, ?_⟩ <;> decide
theorem pkcs7Unpad : Statement .pkcs7Unpad := by refine ⟨?_, ?_, ?_⟩ <;> decide
theorem ivPrepend : Statement .ivPrepend := by refine ⟨?_, ?_, ?_⟩ <;> decide

end Sys2Proof.Laws.FixedWord
end

