-- ==== Sys2Proof/Laws/Results.lean ====
section
/-! SUPPORT. What the errors of a command are, and that every report an EXECUTE step writes is a legal one. -/

namespace Sys2Proof.Machine

/-- R300: the errors a command's own checks and computation raise: every kind but an illegal command word. -/
def ownError : CommandError → Bool
  | .inputValidation _ _ => true
  | .malformedEnvelope => true
  | .decryptionFailure => true
  | .unsupportedOperation _ => false
  | .illegalCommand _ => false

/-- A computation that raises only errors of the command's own. -/
def RaisesOwn {α : Type} (x : Except CommandError α) : Prop := ∀ e, x = .error e → ownError e = true

theorem raisesOwn_ok {α : Type} (v : α) : RaisesOwn (.ok v : Except CommandError α) := by
  intro e h
  cases h

theorem raisesOwn_bind {α β : Type} {x : Except CommandError α} {f : α → Except CommandError β} (hx : RaisesOwn x)
    (hf : ∀ v, RaisesOwn (f v)) : RaisesOwn (x >>= f) := by
  intro e h
  rcases bind_eq_error.1 h with h | ⟨v, -, h⟩
  · exact hx e h
  · exact hf v e h

theorem raisesOwn_raiseIf {q : Bool} {e : CommandError} (h : ownError e = true) : RaisesOwn (raiseIf q e) := by
  intro d hd
  rwa [← (raiseIf_eq_error.1 hd).2]

theorem raisesOwn_checkSizes {p : Params} {a b c : Bytes} {xs : List OperandName} : RaisesOwn (checkSizes p a b c xs) := by
  intro e h
  obtain ⟨x, -, rfl⟩ := checkSizes_error h
  rfl

theorem raisesOwn_requireNonEmpty {x : OperandName} {v : Bytes} : RaisesOwn (requireNonEmpty x v) :=
  raisesOwn_raiseIf rfl

theorem raisesOwn_requireRawKey {b : Bytes} : RaisesOwn (requireRawKey b) :=
  raisesOwn_bind raisesOwn_requireNonEmpty fun _ => raisesOwn_raiseIf rfl

theorem raisesOwn_requireWholeBlocks {a : Bytes} : RaisesOwn (requireWholeBlocks a) :=
  raisesOwn_bind raisesOwn_requireNonEmpty fun _ => raisesOwn_raiseIf rfl

theorem raisesOwn_requireIv {c : Bytes} : RaisesOwn (requireIv c) :=
  raisesOwn_bind raisesOwn_requireNonEmpty fun _ => raisesOwn_raiseIf rfl

theorem raisesOwn_checkEnvelope {a : Bytes} : RaisesOwn (checkEnvelope a) :=
  raisesOwn_bind raisesOwn_requireNonEmpty fun _ => raisesOwn_raiseIf rfl

theorem raisesOwn_keyFromRaw {b : Bytes} : RaisesOwn (keyFromRaw b) :=
  raisesOwn_bind raisesOwn_requireRawKey fun _ => raisesOwn_ok _

theorem raisesOwn_keyFromPhrase {p : Params} {b c : Bytes} : RaisesOwn (keyFromPhrase p b c) :=
  raisesOwn_bind raisesOwn_requireNonEmpty fun _ => raisesOwn_ok _

theorem raisesOwn_checkCbcOperands {a b c : Bytes} : RaisesOwn (checkCbcOperands a b c) :=
  raisesOwn_bind raisesOwn_requireWholeBlocks fun _ => raisesOwn_bind raisesOwn_requireRawKey fun _ => raisesOwn_requireIv

theorem raisesOwn_unpadResult {x : Bytes} : RaisesOwn (unpadResult x) := by
  intro e h
  unfold unpadResult at h
  split at h <;> cases h
  rfl

theorem raisesOwn_decryptEnvelope {e k : Bytes} : RaisesOwn (decryptEnvelope e k) :=
  raisesOwn_bind (raisesOwn_raiseIf rfl) fun _ => raisesOwn_unpadResult

/-- A command raises only errors of its own; an illegal word is `decode`'s. -/
theorem raisesOwn_commandResult {p : Params} {i : Instr} {a b c iv : Bytes} : RaisesOwn (commandResult p i a b c iv) := by
  cases i <;> refine raisesOwn_bind raisesOwn_checkSizes fun _ => ?_
  case digestSha256 => exact raisesOwn_bind raisesOwn_requireNonEmpty fun _ => raisesOwn_ok _
  case digestSha512 => exact raisesOwn_bind raisesOwn_requireNonEmpty fun _ => raisesOwn_ok _
  case deriveKeyAes256 => exact raisesOwn_bind raisesOwn_requireNonEmpty fun _ => raisesOwn_ok _
  case encryptAes256 =>
    exact raisesOwn_bind raisesOwn_requireNonEmpty fun _ => raisesOwn_bind raisesOwn_keyFromRaw fun _ => raisesOwn_ok _
  case encryptPhraseAes256 =>
    exact raisesOwn_bind raisesOwn_requireNonEmpty fun _ => raisesOwn_bind raisesOwn_keyFromPhrase fun _ => raisesOwn_ok _
  case decryptAes256 =>
    exact raisesOwn_bind raisesOwn_checkEnvelope fun _ =>
      raisesOwn_bind raisesOwn_keyFromRaw fun _ => raisesOwn_decryptEnvelope
  case decryptPhraseAes256 =>
    exact raisesOwn_bind raisesOwn_checkEnvelope fun _ =>
      raisesOwn_bind raisesOwn_keyFromPhrase fun _ => raisesOwn_decryptEnvelope
  case aesKeyExpand => exact raisesOwn_bind raisesOwn_requireRawKey fun _ => raisesOwn_ok _
  case aesCbcEncrypt => exact raisesOwn_bind raisesOwn_checkCbcOperands fun _ => raisesOwn_ok _
  case aesCbcDecrypt => exact raisesOwn_bind raisesOwn_checkCbcOperands fun _ => raisesOwn_ok _
  case pkcs7Pad => exact raisesOwn_ok _
  case pkcs7Unpad => exact raisesOwn_bind raisesOwn_requireWholeBlocks fun _ => raisesOwn_unpadResult
  case ivPrepend => exact raisesOwn_bind raisesOwn_requireIv fun _ => raisesOwn_ok _

/-- The report of an error of a command's own is legal. -/
theorem legalReport_ownError {e : CommandError} (h : ownError e = true) : legalReport (errorStatus e) (errorInfo e) = true := by
  cases e with
  | inputValidation reason x => cases reason <;> cases x <;> decide
  | malformedEnvelope => decide
  | decryptionFailure => decide
  | unsupportedOperation _ => cases h
  | illegalCommand _ => cases h

/-- The report of a word that encodes no operation is legal. -/
theorem legalReport_decodeError (e : DecodeError) :
    legalReport (errorStatus (decodeErrorOf e)) (errorInfo (decodeErrorOf e)) = true := by
  cases e with
  | unsupportedAlg alg => simp [legalReport, decodeErrorOf, errorStatus]
  | reservedOp => decide
  | rsvNonzero => decide
  | stageAlgNonzero => decide

end Sys2Proof.Machine
end

