-- ==== Sys2Proof/Laws/Schedule.lean ====
section
/-! SUPPORT. What a step can do, said once. -/

namespace Sys2Proof.Machine

/-- Everything a step that answers a next state can have done. -/
inductive Moved (s : State) : State → Prop where
  /-- a busy channel took its EXECUTE step; the agenda stands, or has lost the turn it gave -/
  | ran (k : Nat) (ch : Channel) (agenda : List Move) (r : Except CommandError Bytes) (d : Nat)
      (hch : s.channel? k = some ch) (hbusy : ch.busy = true) (hd : d ≤ 1)
      (hagenda : agenda = s.agenda ∨ s.agenda = .execute k :: agenda)
      (hr : (∃ i, decode ch.cmd = .ok i ∧ r = commandResult Config.params i ch.a ch.b ch.c s.iv ∧ d = drawsOf i r) ∨
        (∃ e, decode ch.cmd = .error e ∧ r = .error (decodeErrorOf e) ∧ d = 0)) :
      Moved s
        { s with
          agenda := agenda
          channels := s.channels.set k (Channel.executed (Completion.ofResult r))
          active := k
          draws := s.draws + d }
  | submitted (k : Nat) (ch : Channel) (cmd : CommandWord) (a b c : Bytes) (rest : List Move)
      (hagenda : s.agenda = .submit k cmd a b c :: rest) (hch : s.channel? k = some ch) (hbusy : ch.busy = false) :
      Moved s { s with agenda := rest, channels := s.channels.set k (Channel.submitted cmd a b c) }
  | collected (k : Nat) (ch : Channel) (rest : List Move) (hagenda : s.agenda = .collect k :: rest)
      (hch : s.channel? k = some ch) (hbusy : ch.busy = false) (hvalid : ch.resultValid = true) :
      Moved s
        { s with
          agenda := rest
          channels := s.channels.set k ch.collected
          replies := s.replies ++ [.collected k ch.status ch.info ch.out] }
  /-- a move that changes no channel: a read, a COLLECT with nothing pending, a turn of an idle channel -/
  | passed (m : Move) (rest : List Move) (replies : List Reply) (hagenda : s.agenda = m :: rest) :
      Moved s { s with agenda := rest, replies := replies }
  | reset (rest : List Move) (hagenda : s.agenda = .reset :: rest) :
      Moved s { s with agenda := rest, channels := s.channels.map fun _ => Channel.reset }
  | idle (hagenda : s.agenda = []) (hbusy : firstBusy s = none) : Moved s s

/-- The EXECUTE step of a busy channel, the agenda standing or having lost its turn. -/
theorem moved_of_executeChannel {s t : State} {k : Nat} {ch : Channel} {agenda : List Move} (hch : s.channel? k = some ch)
    (hbusy : ch.busy = true) (hagenda : agenda = s.agenda ∨ s.agenda = .execute k :: agenda)
    (h : executeChannel k ch { s with agenda := agenda } = .next t) : Moved s t := by
  obtain ⟨r, d, hd, hr, he⟩ := executeChannel_eq_next (s := { s with agenda := agenda }) (k := k) (ch := ch) hch
  rw [he] at h
  cases h
  exact .ran k ch agenda r d hch hbusy hd hagenda hr

/-- The channel found first busy is there, and busy. -/
theorem firstBusy_eq_some {s : State} {k : Nat} (h : firstBusy s = some k) :
    ∃ ch, s.channel? k = some ch ∧ ch.busy = true := by
  obtain ⟨hlt, hb, -⟩ := List.findIdx?_eq_some_iff_getElem.1 h
  exact ⟨_, by simp [State.channel?, hlt], hb⟩

/-- The inversion lemma of step. -/
theorem moved_of_step {s t : State} (h : step s = .next t) : Moved s t := by
  unfold step takeTurn at h
  split at h
  · rename_i hagenda
    unfold runOn at h
    split at h
    · rename_i hb
      cases h
      exact .idle hagenda hb
    · rename_i k hk
      obtain ⟨ch, hch, hb⟩ := firstBusy_eq_some hk
      rw [hch] at h
      exact moved_of_executeChannel hch hb (.inl rfl) h
  · rename_i k cmd a b c rest hagenda
    unfold moveSubmit at h
    split at h
    · cases h
    · rename_i ch hch
      split at h
      · rename_i hb
        exact moved_of_executeChannel hch hb (.inl rfl) h
      · rename_i hb
        cases h
        have := Moved.submitted k ch cmd a b c rest hagenda hch (by simpa using hb)
        simpa [State.setChannel, State.nextMove, hagenda] using this
  · rename_i k rest hagenda
    unfold moveExecute at h
    split at h
    · cases h
    · rename_i ch hch
      split at h
      · rename_i hb
        refine moved_of_executeChannel (agenda := rest) hch hb (.inr hagenda) ?_
        simpa [State.nextMove, hagenda] using h
      · cases h
        simpa [State.nextMove, hagenda] using Moved.passed _ rest s.replies hagenda
  · rename_i k rest hagenda
    unfold moveCollect at h
    split at h
    · cases h
    · rename_i ch hch
      split at h
      · rename_i hb
        exact moved_of_executeChannel hch hb (.inl rfl) h
      · rename_i hb
        cases h
        unfold collect
        split
        · rename_i hv
          have := Moved.collected k ch rest hagenda hch (by simpa using hb) hv
          simpa [State.setChannel, State.nextMove, State.hand, hagenda] using this
        · simpa [State.nextMove, State.hand, hagenda] using
            Moved.passed _ rest (s.replies ++ [.fault k .collectNothingPending]) hagenda
  · rename_i k rest hagenda
    unfold moveReadBusy at h
    split at h
    · cases h
    · rename_i ch hch
      cases h
      simpa [State.nextMove, State.hand, hagenda] using Moved.passed _ rest (s.replies ++ [.busy k ch.busy]) hagenda
  · rename_i k rest hagenda
    unfold moveReadResultValid at h
    split at h
    · cases h
    · rename_i ch hch
      cases h
      simpa [State.nextMove, State.hand, hagenda] using
        Moved.passed _ rest (s.replies ++ [.resultValid k ch.resultValid]) hagenda
  · rename_i rest hagenda
    cases h
    simpa [State.nextMove, resetBlock, hagenda] using Moved.reset rest hagenda

end Sys2Proof.Machine
end

