-- ==== Sys2Proof/Machine/HostProgram.lean ====
section
/-! DEFINITION. The host's statements and pseudo-commands (R81 to R83). They are not commands of the block: a statement is the
host sequence SUBMIT, wait, COLLECT, and the control flow is the host's own (R8). The host's variables are held apart from the
block's state (log 16). -/

namespace Sys2Proof.Machine

/-- R81: an operand: a buffer's name, or a literal (`-` is the literal ε). -/
inductive HostOperand where
  | buffer (name : String)
  | literal (v : Bytes)
  deriving DecidableEq, Repr

/-- R81, R82: a statement of a host program. -/
inductive HostStatement where
  /-- R81: `[@k] MNEMONIC dst, A, B, C` and `CMD(0xhhhhhhhh)`; no `dst` is `-` -/
  | command (k : Nat) (word : CommandWord) (dst : Option String) (a b c : HostOperand)
  /-- R82: `CMP dst, x, y`. The spec does not say whether `dst` may be `st`, `inf` or a buffer's name. DESIGN CHOICE, unsafe
  (log 16): `dst` names a variable of CMP's own, whatever its name. -/
  | cmp (dst : String) (x y : HostOperand)
  /-- R82: `BNZ st, label` -/
  | bnz (target : String)
  /-- R82: `JMP label` -/
  | jmp (target : String)
  /-- R82: `HALT` -/
  | halt
  /-- R82: `label:` -/
  | label (name : String)
  deriving DecidableEq, Repr

/-- What a host program works on. -/
structure HostState where
  /-- the next statement -/
  position : Nat
  /-- the buffers written so far; every other buffer is ε (95_test_vectors.md, part 3) -/
  buffers : List (String × Bytes)
  /-- the variables CMP has written so far, apart from `st`, `inf` and the buffers; every other is 0 (log 16) -/
  vars : List (String × Nat)
  /-- R81: status of the last command -/
  st : Byte
  /-- R81: info of the last command -/
  inf : Byte
  /-- R82: the program has ended -/
  halted : Bool
  deriving DecidableEq, Repr

/-- 95_test_vectors.md, part 3: the host's start state. -/
def HostState.start : HostState := { position := 0, buffers := [], vars := [], st := 0, inf := 0, halted := false }

/-- A named value, in place of the value of that name before. -/
def setNamed {α : Type} (name : String) (v : α) (xs : List (String × α)) : List (String × α) :=
  (name, v) :: xs.filter fun x => x.1 != name

/-- R81: the bytes of an operand. -/
def operandBytes (h : HostState) : HostOperand → Bytes
  | .buffer name => (h.buffers.lookup name).getD []
  | .literal v => v

/-- At most `n` steps of the block, until its agenda is empty. -/
def runAgenda : Nat → State → Host.Outcome State Fault Refusal
  | 0, s => .next s
  | n + 1, s =>
    if s.agenda = [] then .next s
    else
      match step s with
      | .next t => runAgenda n t
      | .fault r => .fault r
      | .refused r => .refused r

/-- R81: SUBMIT(k, word, A, B, C), a wait while `BUSY` = 1, and COLLECT(k). Four steps are enough: a wait before the SUBMIT,
the SUBMIT, a wait before the COLLECT, the COLLECT. -/
def callBlock (k : Nat) (word : CommandWord) (a b c : Bytes) (s : State) : Host.Outcome State Fault Refusal :=
  runAgenda 4 { s with agenda := [.submit k word a b c, .collect k] }

/-- R81: what the host does with the triple COLLECT returned: `st`, `inf`, and `dst` if the status is 0x00. -/
def takeReply (dst : Option String) (r : Option Reply) (h : HostState) : HostState :=
  match r with
  | some (.collected _ status info out) =>
    let h := { h with st := status, inf := info, position := h.position + 1 }
    match dst with
    | some name => if status = statusOk then { h with buffers := setNamed name out h.buffers } else h
    | none => h
  | _ => { h with position := h.position + 1 }

/-- R82: the position of a label. The spec is silent on a label that stands twice and on one that stands nowhere. DESIGN CHOICE,
unsafe (log 16): the first of several; the end of the program where there is none. -/
def labelPosition (prog : List HostStatement) (target : String) : Nat :=
  prog.findIdx fun x => x == .label target

/-- R81, R82: one statement of a host program on the block. DESIGN CHOICE, unsafe (log 16): CMP writes a variable of its own,
so after `CMP st, x, y` a `BNZ st` still reads the status of the last command; and running past the end halts. -/
def hostStep (prog : List HostStatement) (h : HostState) (s : State) : Host.Outcome (HostState × State) Fault Refusal :=
  if h.halted then .next (h, s)
  else
    match prog[h.position]? with
    | none => .next ({ h with halted := true }, s)
    | some (.command k word dst a b c) =>
      match callBlock k word (operandBytes h a) (operandBytes h b) (operandBytes h c) s with
      | .next t => .next (takeReply dst t.replies.getLast? h, t)
      | .fault r => .fault r
      | .refused r => .refused r
    | some (.cmp dst x y) =>
      let v := if operandBytes h x = operandBytes h y then 1 else 0
      .next ({ h with vars := setNamed dst v h.vars, position := h.position + 1 }, s)
    | some (.bnz target) =>
      .next ({ h with position := if h.st = 0 then h.position + 1 else labelPosition prog target }, s)
    | some (.jmp target) => .next ({ h with position := labelPosition prog target }, s)
    | some .halt => .next ({ h with halted := true }, s)
    | some (.label _) => .next ({ h with position := h.position + 1 }, s)

/-- R81: an omitted operand is ε. -/
def noOperand : HostOperand := .literal []

/-- R81: a statement of a mnemonic, on channel k. -/
def mnemonicStatement (k : Nat) (i : Instr) (dst : Option String) (a b c : HostOperand) : HostStatement :=
  .command k (encode i) dst a b c

/-- R83: `SHA256 dst, a`. -/
def pseudoSha256 (k : Nat) (dst : Option String) (a : HostOperand) : HostStatement :=
  mnemonicStatement k .digestSha256 dst a noOperand noOperand

/-- R83: `SHA512 dst, a`. -/
def pseudoSha512 (k : Nat) (dst : Option String) (a : HostOperand) : HostStatement :=
  mnemonicStatement k .digestSha512 dst a noOperand noOperand

/-- R83: `KDF dst, phrase [, salt]`. -/
def pseudoKdf (k : Nat) (dst : Option String) (phrase : HostOperand) (salt : Option HostOperand) : HostStatement :=
  mnemonicStatement k .deriveKeyAes256 dst noOperand phrase (salt.getD noOperand)

/-- R83: `ENC dst, pt, key`. -/
def pseudoEnc (k : Nat) (dst : Option String) (pt key : HostOperand) : HostStatement :=
  mnemonicStatement k .encryptAes256 dst pt key noOperand

/-- R83: `DEC dst, env, key`. -/
def pseudoDec (k : Nat) (dst : Option String) (env key : HostOperand) : HostStatement :=
  mnemonicStatement k .decryptAes256 dst env key noOperand

/-- R83: `ENCP dst, pt, phrase [, salt]`. -/
def pseudoEncp (k : Nat) (dst : Option String) (pt phrase : HostOperand) (salt : Option HostOperand) : HostStatement :=
  mnemonicStatement k .encryptPhraseAes256 dst pt phrase (salt.getD noOperand)

/-- R83: `DECP dst, env, phrase [, salt]`. -/
def pseudoDecp (k : Nat) (dst : Option String) (env phrase : HostOperand) (salt : Option HostOperand) : HostStatement :=
  mnemonicStatement k .decryptPhraseAes256 dst env phrase (salt.getD noOperand)

end Sys2Proof.Machine
end

