-- ==== Sys2Proof/Tests/Slice0.lean ====
section
/-! SUPPORT. Tests: words written out from the encoding, ill-formed commands, vectors of 95_test_vectors.md (named in each
comment), and for every statement with hypotheses a witness that meets them all. -/

namespace Sys2Proof.Tests

open Sys2Proof Sys2Proof.Machine

/-! ### Helpers -/

/-- A hex literal of n bytes. -/
def hex (n v : Nat) : Bytes := bytesBE n v

/-- A one-channel block whose channel has just been submitted a command, its turn next. -/
def ready (w : CommandWord) (a b c : Bytes) : State :=
  { channels := [Channel.submitted w a b c], agenda := [.execute 0], replies := [], active := 0, draws := 0 }

/-- A one-channel block with this channel and this agenda. -/
def block (ch : Channel) (agenda : List Move) : State :=
  { channels := [ch], agenda := agenda, replies := [], active := 0, draws := 0 }

/-- What channel 0 reports after one step. -/
def report (s : State) : Option (Byte × Byte × Bytes) :=
  match step s with
  | .next t => (t.channel? 0).map fun ch => (ch.status, ch.info, ch.out)
  | _ => none

/-- What the host has been handed after one step. -/
def handed (s : State) : Option (List Reply) :=
  match step s with
  | .next t => some t.replies
  | _ => none

/-- The draw iv0 of 95_test_vectors.md. -/
def iv0 : Bytes := hex 16 0x000102030405060708090a0b0c0d0e0f

/-- The key K1 of 95_test_vectors.md. -/
def key1 : Bytes := hex 32 0x936a185caaa266bb9cbe981e9e05cb78cd732b0b3280eb944412bb6f8f8f07af

/-- "attack at dawn" -/
def attack : Bytes := hex 14 0x61747461636b206174206461776e

/-- OUT of vector E1. -/
def envelope1 : Bytes := iv0 ++ hex 16 0x2e561acc12d664c19392951743e4719e

/-- The smallest `MAX_LEN`, as section 2.8 takes it, with vector K4's sample salt "SAMPLE-SALT". -/
def small : Params := ⟨48, hex 11 0x53414d504c452d53414c54⟩

/-- The report of a command under `small`, with the draw iv0. -/
def reportOf (i : Instr) (a b c : Bytes) : Completion := Completion.ofResult (commandResult small i a b c iv0)

/-! ### Decoding: the words of R76, bit by bit as RSV, ALG, OP -/

theorem test_decode_digest_sha512 : decode (0b0000000000000000#16 ++ 0b00000101#8 ++ 0b00000001#8) = .ok .digestSha512 := by
  decide

theorem test_decode_derive_key : decode (0b0000000000000000#16 ++ 0b00000010#8 ++ 0b00000010#8) = .ok .deriveKeyAes256 := by
  decide

theorem test_decode_decrypt_phrase :
    decode (0b0000000000000000#16 ++ 0b00000010#8 ++ 0b00000110#8) = .ok .decryptPhraseAes256 := by decide

theorem test_decode_key_expand : decode (0b0000000000000000#16 ++ 0b00000000#8 ++ 0b00010000#8) = .ok .aesKeyExpand := by
  decide

theorem test_decode_iv_prepend : decode (0b0000000000000000#16 ++ 0b00000000#8 ++ 0b00010101#8) = .ok .ivPrepend := by decide

theorem test_decode_table_word : decodeTableWord 32 0x00000203 = some .encryptAes256 ∧ decodeTableWord 40 0x203 = none := by
  decide

/-- X4e, X5e, X6e, X7e: reserved OP before RSV before stage ALG. -/
theorem test_decode_illegal_words :
    [0x00010000, 0x00010301, 0x00000110, 0x00010110].map decode =
      [.error .reservedOp, .error .rsvNonzero, .error .stageAlgNonzero, .error .rsvNonzero] := by decide

/-- X9, X10, X11, X16: an ALG of the other enumeration, or none, is unsupported. -/
theorem test_decode_unsupported_words :
    [0x00000201, 0x00000401, 0x0000FF01, 0x00000302].map decode =
      [.error (.unsupportedAlg 2), .error (.unsupportedAlg 4), .error (.unsupportedAlg 0xFF), .error (.unsupportedAlg 3)] := by
  decide

/-! ### Ill-formed commands: one for each check of `WellFormed` -/

theorem test_wf_empty_message : WellFormed small .digestSha256 [] [] [] = false := by decide
theorem test_wf_long_message : WellFormed small .digestSha256 (zeros 49) [] [] = false := by decide
theorem test_wf_empty_phrase : WellFormed small .deriveKeyAes256 [] [] [1] = false := by decide
theorem test_wf_long_salt : WellFormed small .deriveKeyAes256 [] [1] (zeros 49) = false := by decide
theorem test_wf_key_length : WellFormed small .encryptAes256 [1] (zeros 31) [] = false := by decide
theorem test_wf_short_envelope : WellFormed small .decryptAes256 (zeros 16) (zeros 32) [] = false := by decide
theorem test_wf_partial_block : WellFormed small .aesCbcEncrypt (zeros 15) (zeros 16) (zeros 16) = false := by decide
theorem test_wf_no_block : WellFormed small .pkcs7Unpad [] [] [] = false := by decide
theorem test_wf_iv_length : WellFormed small .ivPrepend [] [] (zeros 17) = false := by decide
theorem test_wf_legal : WellFormed small .aesCbcDecrypt (zeros 48) (zeros 24) (zeros 16) = true := by decide

/-! ### The commands, against the vectors -/

/-- H1. -/
theorem test_digest_sha256_abc : report (ready 0x301 (hex 3 0x616263) [] []) =
    some (0, 0, hex 32 0xba7816bf8f01cfea414140de5dae2223b00361a396177a9cb410ff61f20015ad) := by decide +kernel

/-- H6: the smallest two-block message. -/
theorem test_sha256_two_blocks : sha256 (zeros 56) =
    hex 32 0xd4817aa5497628e7c77e6b606107042bbba3130888c5f47a375e6179be789fbb := by decide +kernel

/-- H11. -/
theorem test_digest_sha512_abc : report (ready 0x501 (hex 3 0x616263) [] []) =
    some (0, 0, hex 64 0xddaf35a193617abacc417349ae20413112e6fa4e89a97ea20a9eeee64b55d39a2192992a274fc1a836ba3c23a3feebbd454d4423643ce80e2a9ac94fa54ca49f) := by
  decide +kernel

/-- H15: a padding that adds a whole block. -/
theorem test_sha512_two_blocks : sha512 (zeros 112) =
    hex 64 0x2be2e788c8a8adeaa9c89a7f78904cacea6e39297d75e0573a73c756234534d6627ab4156b48a6657b29ab8beb73334040ad39ead81446bb09c70704ec707952 := by
  decide +kernel

/-- K1: UTF-16LE "hello" and "world". -/
theorem test_derive_key : report (ready 0x202 [] (hex 10 0x680065006c006c006f00) (hex 10 0x77006f0072006c006400)) =
    some (0, 0, hex 32 0x13b33575336780080bb71dec2a7434043608ff4569c0e44ad6fcfe007b5e6e06) := by decide +kernel

/-- K4a: the default salt of the sample parameter. -/
theorem test_derive_key_default_salt : reportOf .deriveKeyAes256 [] (hex 2 0x7077) [] =
    ⟨0, 0, hex 32 0x3f6357d19bf1029906ce39afcdea1c5676e3a2b04a14ed3953a6c888e59144d4⟩ := by decide +kernel

/-- E1. -/
theorem test_encrypt : reportOf .encryptAes256 attack key1 [] = ⟨0, 0, envelope1⟩ := by decide +kernel

/-- E8: a 24-byte key gives AES-192. -/
theorem test_encrypt_aes192 : reportOf .encryptAes256 attack (hex 24 0x000102030405060708090a0b0c0d0e0f1011121314151617) [] =
    ⟨0, 0, iv0 ++ hex 16 0xc487495854dde8a6f4a29eb518c199f9⟩ := by decide +kernel

/-- E9: a two-block plaintext under a phrase. -/
theorem test_encrypt_phrase :
    reportOf .encryptPhraseAes256 (hex 28 0x610074007400610063006b0020006100740020006400610077006e00)
      (hex 10 0x680065006c006c006f00) (hex 10 0x77006f0072006c006400) =
    ⟨0, 0, iv0 ++ hex 32 0xf312dfc5d2e39fe0e7753beb4895e7c1345a5bc1d701c7b8efb0345dac874947⟩ := by decide +kernel

/-- X26: the plaintext is checked before the phrase. -/
theorem test_encrypt_phrase_empty : reportOf .encryptPhraseAes256 [] [] [] = ⟨0x01, 0x11, []⟩ := by decide +kernel

/-- E6. -/
theorem test_decrypt : report (ready 0x205 envelope1 key1 []) = some (0, 0, attack) := by decide +kernel

/-- T3: a tampered IV byte turns the pad 02 02 into 02 01, so 15 bytes are returned. -/
theorem test_decrypt_tampered_iv :
    report (ready 0x205 (hex 16 0x000102030405060708090a0b0c0d0e0c ++ hex 16 0x2e561acc12d664c19392951743e4719e) key1 []) =
      some (0, 0, attack ++ [2]) := by decide +kernel

/-- E12: another split of the same salted phrase decrypts E9. -/
theorem test_decrypt_phrase :
    report (ready 0x206 (iv0 ++ hex 32 0xf312dfc5d2e39fe0e7753beb4895e7c1345a5bc1d701c7b8efb0345dac874947)
      (hex 12 0x680065006c006c006f007700) (hex 8 0x6f0072006c006400)) =
      some (0, 0, hex 28 0x610074007400610063006b0020006100740020006400610077006e00) := by decide +kernel

/-- E11: a wrong salt. -/
theorem test_decrypt_phrase_wrong_salt :
    report (ready 0x206 (iv0 ++ hex 32 0xf312dfc5d2e39fe0e7753beb4895e7c1345a5bc1d701c7b8efb0345dac874947)
      (hex 10 0x680065006c006c006f00) (hex 10 0x77006f0072006c006500)) = some (0x04, 0, []) := by decide +kernel

/-- X3: w[8] and w[59] of FIPS 197 A.3, of the 240 bytes. -/
theorem test_key_expand_256 :
    ((reportOf .aesKeyExpand [] (hex 32 0x603deb1015ca71be2b73aef0857d77811f352c073b6108d72d9810a30914dff4) []).out.drop 32).take 4 =
      hex 4 0x9ba35411 ∧
    (reportOf .aesKeyExpand [] (hex 32 0x603deb1015ca71be2b73aef0857d77811f352c073b6108d72d9810a30914dff4) []).out.drop 236 =
      hex 4 0x706c631e := by decide +kernel

/-- X2: the last word for a 24-byte key. -/
theorem test_key_expand_192 :
    (reportOf .aesKeyExpand [] (hex 24 0x8e73b0f7da0e6452c810f32b809079e562f8ead2522c6b7b) []).out.drop 204 =
      hex 4 0x01002202 := by decide +kernel

/-- CB4. -/
theorem test_cbc_encrypt :
    report (ready 0x11 (hex 16 0x6bc1bee22e409f96e93d7e117393172a)
      (hex 32 0x603deb1015ca71be2b73aef0857d77811f352c073b6108d72d9810a30914dff4) iv0) =
      some (0, 0, hex 16 0xf58c4c04d6e5f1ba779eabfb5f7bfbd6) := by decide +kernel

/-- CB1, first two blocks: AES-128 and the chaining. -/
theorem test_cbc_encrypt_chains :
    report (ready 0x11 (hex 32 0x6bc1bee22e409f96e93d7e117393172aae2d8a571e03ac9c9eb76fac45af8e51)
      (hex 16 0x2b7e151628aed2a6abf7158809cf4f3c) iv0) =
      some (0, 0, hex 32 0x7649abac8119b246cee98e9b12e9197d5086cb9b507219ee95db113a917678b2) := by decide +kernel

/-- CB2 read backwards, first two blocks: AES-192. -/
theorem test_cbc_decrypt :
    report (ready 0x12 (hex 32 0x4f021db243bc633d7178183a9fa071e8b4d9ada9ad7dedf4e5e738763f69145a)
      (hex 24 0x8e73b0f7da0e6452c810f32b809079e562f8ead2522c6b7b) iv0) =
      some (0, 0, hex 32 0x6bc1bee22e409f96e93d7e117393172aae2d8a571e03ac9c9eb76fac45af8e51) := by decide +kernel

/-- X43: the key before the IV. -/
theorem test_cbc_decrypt_key_first : reportOf .aesCbcDecrypt (zeros 16) (zeros 8) (zeros 15) = ⟨0x01, 0x22, []⟩ := by
  decide +kernel

/-- P2v. -/
theorem test_pad : report (ready 0x13 (hex 3 0x616263) [] []) =
    some (0, 0, hex 16 0x6162630d0d0d0d0d0d0d0d0d0d0d0d0d) := by decide +kernel

/-- P5v: a whole block is added. -/
theorem test_pad_whole_block : report (ready 0x13 (zeros 16) [] []) = some (0, 0, zeros 16 ++ List.replicate 16 0x10) := by
  decide +kernel

/-- U7. -/
theorem test_unpad : report (ready 0x14 (attack ++ [2, 2]) [] []) = some (0, 0, attack) := by decide +kernel

/-- U6: the strict check. -/
theorem test_unpad_strict : report (ready 0x14 (zeros 14 ++ [1, 2]) [] []) = some (0x04, 0, []) := by decide +kernel

/-- V1. -/
theorem test_iv_prepend : report (ready 0x15 [0xaa] [] iv0) = some (0, 0, iv0 ++ [0xaa]) := by decide +kernel

/-- X45: the size of A before the IV. -/
theorem test_iv_prepend_long : reportOf .ivPrepend (zeros 49) [] [] = ⟨0x01, 0x31, []⟩ := by decide +kernel

/-! ### Words that encode no operation, the host's actions, and the placing of a command -/

/-- X7e: an illegal word completes with its error. -/
theorem test_illegal_word : report (ready 0x00010110 [] (zeros 32) []) = some (0x06, 0x03, []) := by decide

/-- X11: an unsupported ALG is the INFO. -/
theorem test_unsupported_word : report (ready 0x0000FF01 [1] [] []) = some (0x02, 0xFF, []) := by decide

/-- R30: SUBMIT discards an uncollected result. -/
theorem test_submit :
    (match step (block (Claim.reported 0 0 [7]) [.submit 0 0x13 [1] [2] [3]]) with
      | .next t => t.channels
      | _ => []) = [Channel.submitted 0x13 [1] [2] [3]] := by decide

/-- R32: COLLECT hands over the triple. -/
theorem test_collect : handed (block (Claim.reported 0x04 0 []) [.collect 0]) = some [.collected 0 0x04 0 []] := by decide

/-- R33, R312: nothing pending. -/
theorem test_collect_nothing : handed (block Channel.reset [.collect 0]) = some [.fault 0 .collectNothingPending] := by decide

/-- R340: RESET abandons a command in flight. -/
theorem test_reset_action :
    (match step (block (Channel.submitted 0x13 [1] [] []) [.reset]) with
      | .next t => t.channels
      | _ => []) = [Channel.reset] := by decide

/-- Log 12: a command placed on the reset state runs in the next step; with A = ε, PKCS7_PAD gives vector P1v. -/
theorem test_placed_command_runs_next :
    report (State.reset.withFetchWord 32 0x00000013) = some (0, 0, List.replicate 16 0x10) := by decide +kernel

/-- R81, R83: `SHA256 d, "abc"` waits for its result and stores it; vector H1. -/
theorem test_host_statement :
    (match hostStep [pseudoSha256 0 (some "d") (.literal (hex 3 0x616263))] HostState.start (block Channel.reset []) with
      | .next (h, t) => (h.st, h.position, operandBytes h (.buffer "d"), t.channels)
      | _ => (1, 0, [], [])) =
    (0, 1, hex 32 0xba7816bf8f01cfea414140de5dae2223b00361a396177a9cb410ff61f20015ad, [Channel.reset]) := by decide +kernel

/-! ### Witnesses: for every statement with hypotheses, a state and operands that meet all of them -/

/-- Every length up to 48 is within `MAX_LEN`. -/
theorem le_maxLen {n : Nat} (h : n ≤ 48) : n ≤ Config.maxLen := Nat.le_trans h (Nat.le_add_left 48 _)

/-- A channel that holds a command not yet executed. -/
def busyChannel (w : CommandWord) (a b c : Bytes) : Channel := Channel.submitted w a b c

theorem witness_busy_turn : ∃ (s : State) (k : Nat) (rest : List Move) (ch : Channel) (i : Instr),
    s.agenda = .execute k :: rest ∧ s.channel? k = some ch ∧ ch.busy = true ∧ decode ch.cmd = .ok i :=
  ⟨ready 0x301 [1] [] [], 0, [], _, .digestSha256, rfl, rfl, rfl, by decide⟩

/-- Words for each clause of IllegalWordsCompleteWithTheirError, at the boundaries of its range; each may stand in a
busy channel whose turn it is. -/
theorem witness_illegal_words :
    (∀ w, (ready w [] [] []).agenda = [.execute 0] ∧ (ready w [] [] []).channel? 0 = some (busyChannel w [] [] []) ∧
      (busyChannel w [] [] []).busy = true ∧ (busyChannel w [] [] []).cmd = w) ∧
    (([0x00000000, 0x00000007, 0x0000000F, 0x00000016, 0x000000FF] : List CommandWord).all fun w =>
      decide (w.extractLsb' 0 8 ∉ Claim.assignedOps)) ∧
    (([0x00010301, 0x80000015] : List CommandWord).all fun w =>
      decide (w.extractLsb' 0 8 ∈ Claim.assignedOps ∧ w.extractLsb' 16 16 ≠ 0)) ∧
    (([0x00000110, 0x0000FF15] : List CommandWord).all fun w =>
      decide (w.extractLsb' 0 8 ∈ Claim.stageOps ∧ w.extractLsb' 16 16 = 0 ∧ w.extractLsb' 8 8 ≠ 0)) ∧
    (([0x00000001, 0x00000401] : List CommandWord).all fun w =>
      decide (w.extractLsb' 0 8 = 0x01 ∧ w.extractLsb' 16 16 = 0 ∧ w.extractLsb' 8 8 ≠ 3 ∧ w.extractLsb' 8 8 ≠ 5)) ∧
    (([0x00000002, 0x00000306] : List CommandWord).all fun w =>
      decide (w.extractLsb' 0 8 ∈ Claim.cipherOps ∧ w.extractLsb' 16 16 = 0 ∧ w.extractLsb' 8 8 ≠ 2)) :=
  ⟨fun _ => ⟨rfl, rfl, rfl, rfl⟩, by decide⟩

theorem witness_waiting_host : ∃ (s : State) (k : Nat) (rest : List Move) (ch : Channel) (i : Instr),
    (s.agenda = .submit k 0x13 [] [] [] :: rest ∨ s.agenda = .collect k :: rest) ∧ s.channel? k = some ch ∧ ch.busy = true ∧
    decode ch.cmd = .ok i :=
  ⟨block (busyChannel 0x13 [] [] []) [.collect 0], 0, [], _, .pkcs7Pad, .inr rfl, rfl, rfl, by decide⟩

theorem witness_run_on : ∃ (s : State) (k : Nat) (ch : Channel) (i : Instr),
    s.agenda = [] ∧ s.channel? k = some ch ∧ ch.busy = true ∧
    (∀ (j : Nat) (other : Channel), j < k → s.channel? j = some other → other.busy = false) ∧ decode ch.cmd = .ok i :=
  ⟨{ block Channel.reset [] with channels := [Channel.reset, busyChannel 0x13 [] [] []] }, 1, _, .pkcs7Pad, rfl, rfl, rfl,
    fun j other hj h => by
      obtain rfl : j = 0 := by omega
      cases h
      rfl,
    by decide⟩

theorem witness_idle_block : ∃ s : State, s.agenda = [] ∧ ∀ ch ∈ s.channels, ch.busy = false :=
  ⟨block Channel.reset [], rfl, by decide⟩

theorem witness_submit : ∃ (s s' : State) (k : Nat) (rest : List Move) (ch ch' : Channel),
    (s.agenda = .submit k 0x13 [] [] [] :: rest ∧ s.channel? k = some ch ∧ ch.busy = false) ∧
    (s'.agenda = .submit k 0x13 [] [] [] :: rest ∧ s'.channel? k = some ch' ∧ ch'.busy = true) :=
  ⟨block (Claim.reported 0 0 []) [.submit 0 0x13 [] [] []], block (busyChannel 0 [] [] []) [.submit 0 0x13 [] [] []], 0, [],
    _, _, ⟨rfl, rfl, rfl⟩, ⟨rfl, rfl, rfl⟩⟩

theorem witness_collect : ∃ (s s' : State) (k : Nat) (rest : List Move) (ch ch' : Channel),
    (s.agenda = .collect k :: rest ∧ s.channel? k = some ch ∧ ch.busy = false ∧ ch.resultValid = true) ∧
    (s'.agenda = .collect k :: rest ∧ s'.channel? k = some ch' ∧ ch'.busy = true) :=
  ⟨block (Claim.reported 0 0 []) [.collect 0], block (busyChannel 0 [] [] []) [.collect 0], 0, [], _, _,
    ⟨rfl, rfl, rfl, rfl⟩, ⟨rfl, rfl, rfl⟩⟩

theorem witness_collect_nothing : ∃ (s : State) (k : Nat) (rest : List Move) (ch : Channel),
    s.agenda = .collect k :: rest ∧ s.channel? k = some ch ∧ ch.busy = false ∧ ch.resultValid = false :=
  ⟨block Channel.reset [.collect 0], 0, [], _, rfl, rfl, rfl, rfl⟩

theorem witness_reads : ∃ (s s' : State) (k : Nat) (rest : List Move) (ch : Channel),
    (s.channel? k = some ch ∧ s.agenda = .readBusy k :: rest) ∧ (s'.channel? k = some ch ∧ s'.agenda = .readResultValid k :: rest) :=
  ⟨block Channel.reset [.readBusy 0], block Channel.reset [.readResultValid 0], 0, [], _, ⟨rfl, rfl⟩, ⟨rfl, rfl⟩⟩

theorem witness_reset_move : ∃ (s : State) (rest : List Move), s.agenda = .reset :: rest :=
  ⟨block (busyChannel 0x13 [] [] []) [.reset], [], rfl⟩

/-- DigestSha256Completes, DigestSha512Completes. -/
theorem witness_digest_completes : ∃ (s : State) (ch : Channel),
    s.channel? s.active = some ch ∧ ch.a ≠ [] ∧ ch.a.length ≤ Config.maxLen :=
  ⟨ready 0x301 [1] [] [], _, rfl, by decide, le_maxLen (by decide)⟩

theorem witness_derive_key_completes : ∃ (s : State) (ch : Channel), s.channel? s.active = some ch ∧ ch.b ≠ [] ∧
    ch.b.length ≤ Config.maxLen ∧ ch.c.length ≤ Config.maxLen :=
  ⟨ready 0x202 [] [1] [], _, rfl, by decide, le_maxLen (by decide), le_maxLen (by decide)⟩

theorem witness_encrypt_completes : ∃ (s : State) (ch : Channel), s.channel? s.active = some ch ∧ ch.a ≠ [] ∧
    ch.a.length ≤ Config.maxLen ∧ (ch.b.length = 16 ∨ ch.b.length = 24 ∨ ch.b.length = 32) :=
  ⟨ready 0x203 [1] (zeros 16) [], _, rfl, by decide, le_maxLen (by decide), by decide⟩

theorem witness_encrypt_phrase_completes : ∃ (s : State) (ch : Channel), s.channel? s.active = some ch ∧ ch.a ≠ [] ∧
    ch.a.length ≤ Config.maxLen ∧ ch.b ≠ [] ∧ ch.b.length ≤ Config.maxLen ∧ ch.c.length ≤ Config.maxLen :=
  ⟨ready 0x204 [1] [1] [], _, rfl, by decide, le_maxLen (by decide), by decide, le_maxLen (by decide), le_maxLen (by decide)⟩

/-- Vector E6. -/
theorem witness_decrypt_completes : ∃ (s : State) (ch : Channel) (plain : Bytes), s.channel? s.active = some ch ∧
    16 < ch.a.length ∧ ch.a.length % 16 = 0 ∧ ch.a.length ≤ Config.maxLen ∧
    (ch.b.length = 16 ∨ ch.b.length = 24 ∨ ch.b.length = 32) ∧
    pkcs7UnpadBytes (cbcDecrypt (ch.a.drop 16) ch.b (ch.a.take 16)) = some plain :=
  ⟨ready 0x205 envelope1 key1 [], _, attack, rfl, by decide, by decide, le_maxLen (by decide), by decide, by decide +kernel⟩

/-- The key of vector E6 is that of the phrase "hello" with the salt "world" (vector K2). -/
theorem witness_decrypt_phrase_completes : ∃ (s : State) (ch : Channel) (plain : Bytes), s.channel? s.active = some ch ∧
    16 < ch.a.length ∧ ch.a.length % 16 = 0 ∧ ch.a.length ≤ Config.maxLen ∧ ch.b ≠ [] ∧ ch.b.length ≤ Config.maxLen ∧
    ch.c.length ≤ Config.maxLen ∧
    pkcs7UnpadBytes (cbcDecrypt (ch.a.drop 16) (kdf Config.params ch.b ch.c) (ch.a.take 16)) = some plain :=
  ⟨ready 0x206 envelope1 (hex 5 0x68656c6c6f) (hex 5 0x776f726c64), _, attack, rfl, by decide, by decide,
    le_maxLen (by decide), by decide, le_maxLen (by decide), le_maxLen (by decide), by decide +kernel⟩

theorem witness_key_expand_completes : ∃ (s : State) (ch : Channel), s.channel? s.active = some ch ∧
    (ch.b.length = 16 ∨ ch.b.length = 24 ∨ ch.b.length = 32) :=
  ⟨ready 0x10 [] (zeros 32) [], _, rfl, by decide⟩

/-- CbcEncryptCompletes, CbcDecryptCompletes. -/
theorem witness_cbc_completes : ∃ (s : State) (ch : Channel), s.channel? s.active = some ch ∧ ch.a ≠ [] ∧
    ch.a.length % 16 = 0 ∧ ch.a.length ≤ Config.maxLen ∧ (ch.b.length = 16 ∨ ch.b.length = 24 ∨ ch.b.length = 32) ∧
    ch.c.length = 16 :=
  ⟨ready 0x11 (zeros 16) (zeros 24) (zeros 16), _, rfl, by decide, by decide, le_maxLen (by decide), by decide, by decide⟩

theorem witness_pad_completes : ∃ (s : State) (ch : Channel), s.channel? s.active = some ch ∧ ch.a.length ≤ Config.maxLen :=
  ⟨ready 0x13 [] [] [], _, rfl, le_maxLen (by decide)⟩

theorem witness_unpad_completes : ∃ (s : State) (ch : Channel) (d : Bytes) (n : Nat), s.channel? s.active = some ch ∧ 1 ≤ n ∧
    n ≤ 16 ∧ ch.a = d ++ List.replicate n (BitVec.ofNat 8 n) ∧ ch.a.length % 16 = 0 ∧ ch.a.length ≤ Config.maxLen :=
  ⟨ready 0x14 (List.replicate 16 16) [] [], _, [], 16, rfl, by decide, by decide, by decide, by decide, le_maxLen (by decide)⟩

theorem witness_iv_prepend_completes : ∃ (s : State) (ch : Channel), s.channel? s.active = some ch ∧
    ch.a.length ≤ Config.maxLen ∧ ch.c.length = 16 :=
  ⟨ready 0x15 [] [] (zeros 16), _, rfl, le_maxLen (by decide), by decide⟩

/-- A state whose operand of each name is one byte too long. -/
theorem witness_too_long : ∃ (s : State) (ch : Channel), s.channel? s.active = some ch ∧ Config.maxLen < ch.a.length ∧
    Config.maxLen < ch.b.length ∧ Config.maxLen < ch.c.length :=
  ⟨ready 0x206 (zeros (Config.maxLen + 1)) (zeros (Config.maxLen + 1)) (zeros (Config.maxLen + 1)), _, rfl,
    by simp [Channel.submitted, zeros], by simp [Channel.submitted, zeros], by simp [Channel.submitted, zeros]⟩

/-- DeriveKeyReportsItsErrors, second and third clause. -/
theorem witness_derive_key_errors : ∃ (s s' : State) (ch ch' : Channel),
    (s.channel? s.active = some ch ∧ ch.b.length ≤ Config.maxLen ∧ Config.maxLen < ch.c.length) ∧
    (s'.channel? s'.active = some ch' ∧ ch'.b = [] ∧ ch'.c.length ≤ Config.maxLen) :=
  ⟨ready 0x202 [] [1] (zeros (Config.maxLen + 1)), ready 0x202 [] [] [], _, _,
    ⟨rfl, le_maxLen (by decide), by simp [Channel.submitted, zeros]⟩, ⟨rfl, rfl, le_maxLen (by decide)⟩⟩

/-- The operands of each clause of the error statements: an empty, a one-byte and a 17-byte A, an empty B, a B of 17 bytes, a
C that is empty or one byte short; every length is within `MAX_LEN` (`le_maxLen`). -/
theorem witness_operand_errors : ∀ a ∈ [zeros 0, zeros 1, zeros 16, zeros 17, zeros 32], ∀ b ∈ [zeros 0, zeros 17, zeros 32],
    ∀ c ∈ [zeros 0, zeros 15, zeros 16], ∃ (s : State) (ch : Channel), s.channel? s.active = some ch ∧ ch.a = a ∧ ch.b = b ∧
      ch.c = c ∧ ch.a.length ≤ Config.maxLen ∧ ch.b.length ≤ Config.maxLen ∧ ch.c.length ≤ Config.maxLen := by
  intro a ha b hb c hc
  refine ⟨ready 0 a b c, Channel.submitted 0 a b c, rfl, rfl, rfl, rfl, le_maxLen ?_, le_maxLen ?_, le_maxLen ?_⟩
  · revert a
    exact fun a ha => (by decide : ∀ a ∈ [zeros 0, zeros 1, zeros 16, zeros 17, zeros 32], a.length ≤ 48) a ha
  · exact (by decide : ∀ b ∈ [zeros 0, zeros 17, zeros 32], b.length ≤ 48) b hb
  · exact (by decide : ∀ c ∈ [zeros 0, zeros 15, zeros 16], c.length ≤ 48) c hc

/-- The decryption failure clauses: L3's 17 bytes, and an envelope whose pad is bad (vector E13: 32 zero bytes as key). -/
theorem witness_decryption_failures : (zeros 17).length % 16 ≠ 0 ∧
    pkcs7UnpadBytes (cbcDecrypt (envelope1.drop 16) (zeros 32) (envelope1.take 16)) = none := by decide +kernel

/-- The bad pad clause of PKCS7_UNPAD: 16 zero bytes (vector U4) are no padded string. -/
theorem witness_bad_pad : ¬ ∃ (d : Bytes) (n : Nat), 1 ≤ n ∧ n ≤ 16 ∧ zeros 16 = d ++ List.replicate n (BitVec.ofNat 8 n) := by
  rintro ⟨d, n, h1, h16, h⟩
  have hmem : BitVec.ofNat 8 n ∈ zeros 16 := by
    rw [h]
    exact List.mem_append_right _ (List.mem_replicate.2 ⟨by omega, rfl⟩)
  have h0 : BitVec.ofNat 8 n = 0x00 := by simpa [zeros] using hmem
  have := congrArg BitVec.toNat h0
  simp at this
  omega

/-- CommandsLeaveEverythingElseUnchanged, OnlySuccessfulEncryptionsTakeOneDraw, ErrorsArePrecise,
ResultDependsOnlyOnOwnChannelAndDraw: commands that answer a next state, one in an error and one not. -/
theorem witness_commands_run : ∃ (s t u : State) (failed succeeded : Channel), exec .aesKeyExpand s = .next t ∧
    t.channel? s.active = some failed ∧ failed.status ≠ 0x00 ∧ exec .pkcs7Pad s = .next u ∧
    u.channel? s.active = some succeeded ∧ succeeded.status = 0x00 :=
  ⟨ready 0 [] [] [], _, _, _, _, rfl, rfl, by decide, rfl, rfl, by decide⟩

/-- EveryStepKeepsTheInvariant: a state that meets the invariant and steps. -/
theorem witness_invariant : ∃ s t : State, s.Inv ∧ step s = .next t :=
  ⟨{ State.reset with agenda := [.reset] }, _, ⟨by simp, by simp; decide⟩, by rfl⟩

/-- EverySubmittedCommandCompletes, StepAlwaysGoesOnWhereMovesAreInRange. -/
theorem witness_agenda_in_range : ∃ s : State, s.agenda ≠ [] ∧ s.agendaInRange :=
  ⟨block Channel.reset [.submit 0 0x13 [] [] [], .collect 0, .reset], by decide, by
    simp [State.agendaInRange, block, Move.inRange]⟩

/-- ExecutionsOnTwoChannelsCommute: two busy channels, neither of which takes a draw. -/
theorem witness_two_channels : ∃ (s t t' : State) (j k : Nat), j ≠ k ∧
    (∀ (ch : Channel) (i : Instr), s.channel? j = some ch → decode ch.cmd = .ok i → takesDraw i = false) ∧
    Host.Core.run Sys2Proof.core 2 ({ s with agenda := [.execute j, .execute k] } : State) = .next t ∧
    Host.Core.run Sys2Proof.core 2 ({ s with agenda := [.execute k, .execute j] } : State) = .next t' :=
  ⟨{ block Channel.reset [] with channels := [busyChannel 0x13 [] [] [], busyChannel 0x14 [] [] []] }, _, _, 0, 1, by decide,
    fun ch i hch hd => by
      cases hch
      have : decode 0x13 = .ok i := hd
      obtain rfl : Instr.pkcs7Pad = i := by
        rw [show decode 0x13 = .ok .pkcs7Pad by decide] at this
        exact Except.ok.inj this
      rfl,
    by rfl, by rfl⟩

/-- UnreadOperandsAreIgnored and ChecksDependOnLengthsOnly. -/
theorem witness_unread_operands : (∀ x ∈ reads .digestSha256, operand x [1] [2] [3] = operand x [1] [4] [5]) ∧
    commandResult small .ivPrepend [1] [2] [3] iv0 = .error (.inputValidation .length .c) ∧
    CommandError.inputValidation .length .c ≠ .decryptionFailure := by decide

/-- ResultsHaveTheTabledLengths. -/
theorem witness_result : iv0.length = 16 ∧ commandResult small .pkcs7Pad [] [] [] iv0 = .ok (List.replicate 16 16) := by
  decide

/-- The length hypotheses of the sub-block statements. -/
theorem witness_sub_block_lengths :
    (List.replicate 16 (0 : BitVec 32)).length = 16 ∧ (List.replicate 16 (0 : BitVec 64)).length = 16 ∧
    (zeros 24).length = 24 ∧ iv0.length = 16 ∧ zeros 48 ≠ [] ∧ (zeros 48).length % 16 = 0 ∧
    ((zeros 15 ++ [0x01]).length % 16 = 0) := by decide

/-- KeyExpansionFollowsItsRecurrence: a key of each length. -/
theorem witness_key_variants : (zeros 16).length = 16 ∧ (zeros 24).length = 24 ∧ (zeros 32).length = 32 := by decide

/-- KeyDerivationSeesOnlyTheConcatenation: vectors K3a and K3b. -/
theorem witness_same_concatenation :
    ([0x61, 0x62] : Bytes) ++ effectiveSalt small [0x63] = [0x61] ++ effectiveSalt small [0x62, 0x63] := by decide

/-- DecryptionReturnsWhatWasEncrypted, PhraseEncryptionIsEncryptionUnderDerivedKey: the longest plaintext for the smallest
`MAX_LEN`. -/
theorem witness_round_trip : iv0.length = 16 ∧ zeros 16 ≠ [] ∧ (zeros 16).length + 32 ≤ Config.maxLen ∧
    (zeros 16).length = 16 ∧ zeros 1 ≠ [] ∧ (zeros 1).length ≤ Config.maxLen ∧ (zeros 0).length ≤ Config.maxLen :=
  ⟨by decide, by decide, le_maxLen (by decide), by decide, by decide, le_maxLen (by decide), le_maxLen (by decide)⟩

end Sys2Proof.Tests
end

section
/-! PROOFS. What the parameters of R9 satisfy whatever their values, and the machine right after reset (R35). -/

namespace Sys2Proof.Config

theorem one_le_nChannels : 1 ≤ nChannels := Nat.le_add_left 1 nChannelsLessOne

theorem forty_eight_le_maxLen : 48 ≤ maxLen := Nat.le_add_left 48 maxLenLess48.val

/-- The bound stands in the type of the bodiless constant, which leaves room for the 48 added to it. -/
theorem maxLen_lt : maxLen < 2 ^ 60 := by
  have hbound : maxLenLess48.val < 2 ^ 60 - 49 + 1 := maxLenLess48.isLt
  unfold maxLen
  omega

/-- The default salt is the configured string cut off at `MAX_LEN`. -/
theorem defaultSalt_length_le : defaultSalt.length ≤ maxLen := List.length_take_le maxLen saltParameter

end Sys2Proof.Config

namespace Sys2Proof.Machine

theorem State.length_reset_channels : State.reset.channels.length = Config.nChannels := by
  rw [State.reset_channels, List.length_replicate]

theorem State.eq_reset_of_mem_reset_channels {ch : Channel} (h : ch ∈ State.reset.channels) : ch = Channel.reset := by
  rw [State.reset_channels] at h
  exact List.eq_of_mem_replicate h

/-- Settles O12: every channel is a copy of `Channel.reset`, whose items are those of the reset table, and the ranges of the
parameters are those of `Config`. -/
theorem resetStateHoldsTheTableAndParametersAreInRange :
    Obligations.ResetStateHoldsTheTableAndParametersAreInRange :=
  ⟨State.length_reset_channels, Config.one_le_nChannels, fun _ hch => State.eq_reset_of_mem_reset_channels hch,
    Config.forty_eight_le_maxLen, Config.maxLen_lt, Config.defaultSalt_length_le⟩

end Sys2Proof.Machine
end

section
/-! PROOFS. The moves of the agents one by one: the equation of each kind of step (R23, R24, R30 to R33, R340). -/

namespace Sys2Proof.Machine

variable {s t : State} {k : Nat} {ch : Channel} {rest : List Move} {cmd : CommandWord} {a b c : Bytes}

/-- Making the first move of a known agenda leaves the rest of it. -/
theorem State.nextMove_eq {m : Move} (hagenda : s.agenda = m :: rest) : s.nextMove = { s with agenda := rest } := by
  simp [State.nextMove, hagenda]

/-- R31: a turn of a busy channel is its EXECUTE step. -/
theorem step_execute_busy (hagenda : s.agenda = .execute k :: rest) (hch : s.channel? k = some ch) (hbusy : ch.busy = true) :
    step s = executeChannel k ch { s with agenda := rest } := by
  simp [step, takeTurn, moveExecute, hagenda, hch, hbusy, State.nextMove_eq hagenda]

/-- A turn of an idle channel passes (log 9). -/
theorem step_execute_idle (hagenda : s.agenda = .execute k :: rest) (hch : s.channel? k = some ch) (hidle : ch.busy = false) :
    step s = .next { s with agenda := rest } := by
  simp [step, takeTurn, moveExecute, hagenda, hch, hidle, State.nextMove_eq hagenda]

theorem step_execute_fault (hagenda : s.agenda = .execute k :: rest) (hch : s.channel? k = none) :
    step s = .fault (.noSuchChannel k) := by
  simp [step, takeTurn, moveExecute, hagenda, hch]

/-- R30: the host waits with its SUBMIT while `BUSY` = 1, and the channel takes its EXECUTE step (log 7). -/
theorem step_submit_busy (hagenda : s.agenda = .submit k cmd a b c :: rest) (hch : s.channel? k = some ch)
    (hbusy : ch.busy = true) : step s = executeChannel k ch s := by
  simp [step, takeTurn, moveSubmit, hagenda, hch, hbusy]

theorem step_submit_idle (hagenda : s.agenda = .submit k cmd a b c :: rest) (hch : s.channel? k = some ch)
    (hidle : ch.busy = false) :
    step s = .next (({ s with agenda := rest } : State).setChannel k (Channel.submitted cmd a b c)) := by
  simp [step, takeTurn, moveSubmit, hagenda, hch, hidle, State.nextMove_eq hagenda]

/-- R32: the same for a COLLECT (log 7). -/
theorem step_collect_busy (hagenda : s.agenda = .collect k :: rest) (hch : s.channel? k = some ch) (hbusy : ch.busy = true) :
    step s = executeChannel k ch s := by
  simp [step, takeTurn, moveCollect, hagenda, hch, hbusy]

theorem step_collect_idle (hagenda : s.agenda = .collect k :: rest) (hch : s.channel? k = some ch) (hidle : ch.busy = false) :
    step s = .next (collect k ch { s with agenda := rest }) := by
  simp [step, takeTurn, moveCollect, hagenda, hch, hidle, State.nextMove_eq hagenda]

theorem collect_valid (hvalid : ch.resultValid = true) :
    collect k ch s = (s.setChannel k ch.collected).hand (.collected k ch.status ch.info ch.out) := by
  simp [collect, hvalid]

theorem collect_nothing (hnothing : ch.resultValid = false) : collect k ch s = s.hand (.fault k .collectNothingPending) := by
  simp [collect, hnothing]

theorem step_readBusy (hagenda : s.agenda = .readBusy k :: rest) (hch : s.channel? k = some ch) :
    step s = .next (({ s with agenda := rest } : State).hand (.busy k ch.busy)) := by
  simp [step, takeTurn, moveReadBusy, hagenda, hch, State.nextMove_eq hagenda]

theorem step_readResultValid (hagenda : s.agenda = .readResultValid k :: rest) (hch : s.channel? k = some ch) :
    step s = .next (({ s with agenda := rest } : State).hand (.resultValid k ch.resultValid)) := by
  simp [step, takeTurn, moveReadResultValid, hagenda, hch, State.nextMove_eq hagenda]

theorem step_reset (hagenda : s.agenda = .reset :: rest) : step s = .next (resetBlock { s with agenda := rest }) := by
  simp [step, takeTurn, hagenda, State.nextMove_eq hagenda]

/-- R80: a word that encodes a command runs it, with the channel active. -/
theorem executeChannel_of_decode {i : Instr} (hdecode : decode ch.cmd = .ok i) :
    executeChannel k ch s = exec i { s with active := k } := by
  simp [executeChannel, hdecode]

/-- R31: a channel that has executed is read back in the form the statements write out. -/
theorem State.channel?_setChannel_executed (hch : s.channel? k = some ch) (r : Completion) :
    (s.setChannel k (Channel.executed r)).channel? k =
      some (Claim.reported r.status r.info (Channel.executed r).out) :=
  s.channel?_setChannel_self (Channel.executed r) hch

/-- R31: the EXECUTE step of any command word ends in a report, with no move made and nothing handed to the host. -/
theorem executeChannel_reports (hch : s.channel? k = some ch) :
    ∃ (t : State) (status info : Byte) (out : Bytes), executeChannel k ch s = .next t ∧ t.agenda = s.agenda ∧
      t.replies = s.replies ∧ t.channel? k = some (Claim.reported status info out) := by
  obtain ⟨r, d, -, -, hnext⟩ := executeChannel_eq_next hch
  exact ⟨_, _, _, _, hnext, rfl, rfl, State.channel?_setChannel_executed hch (Completion.ofResult r)⟩

/-- Settles O4: the turn is the channel's EXECUTE step, which runs what the word decodes to. -/
theorem stepRunsDecodedCommand : Obligations.StepRunsDecodedCommand := by
  intro s k rest ch i hagenda hch hbusy hdecode
  rw [step_execute_busy hagenda hch hbusy, executeChannel_of_decode hdecode]

/-- Settles O5: either move of the host waits by letting the channel take its EXECUTE step. -/
theorem waitingHostLetsTheChannelRun : Obligations.WaitingHostLetsTheChannelRun := by
  intro s k rest ch i cmd a b c hagenda hch hbusy hdecode
  rw [← executeChannel_of_decode hdecode]
  rcases hagenda with hsubmit | hcollect
  · exact step_submit_busy hsubmit hch hbusy
  · exact step_collect_busy hcollect hch hbusy

/-- Settles O7: an idle channel latches the command; a busy one reports first. -/
theorem submitLatchesTheCommand : Obligations.SubmitLatchesTheCommand := by
  intro s k cmd a b c rest ch hagenda hch
  refine ⟨fun hidle => step_submit_idle hagenda hch hidle, fun hbusy => ?_⟩
  obtain ⟨t, status, info, out, hnext, htagenda, -, htch⟩ := executeChannel_reports hch
  exact ⟨t, status, info, out, (step_submit_busy hagenda hch hbusy).trans hnext, htagenda, htch⟩

/-- Settles O8: a waiting result is handed over and cleared; a busy channel reports first. -/
theorem collectReturnsAndClearsTheResult : Obligations.CollectReturnsAndClearsTheResult := by
  intro s k rest ch hagenda hch
  constructor
  · intro hidle hvalid
    rw [step_collect_idle hagenda hch hidle, collect_valid hvalid]
    rfl
  · intro hbusy
    obtain ⟨t, status, info, out, hnext, hkept⟩ := executeChannel_reports hch
    exact ⟨t, status, info, out, (step_collect_busy hagenda hch hbusy).trans hnext, hkept⟩

/-- Settles O9: `collect` hands over the fault alone where no result waits. -/
theorem collectWithNothingPendingFaultsTheHost : Obligations.CollectWithNothingPendingFaultsTheHost := by
  intro s k rest ch hagenda hch hidle hnothing
  rw [step_collect_idle hagenda hch hidle, collect_nothing hnothing]
  rfl

/-- Settles O10: a read hands over the flag and writes no channel. -/
theorem readingTheFlagsHasNoSideEffect : Obligations.ReadingTheFlagsHasNoSideEffect :=
  fun _ _ _ _ hch => ⟨fun hagenda => step_readBusy hagenda hch, fun hagenda => step_readResultValid hagenda hch⟩

/-- Settles O11: mapping every channel to the reset channel is repeating it. -/
theorem resetActionClearsEveryChannel : Obligations.ResetActionClearsEveryChannel := by
  intro s rest hagenda
  rw [step_reset hagenda, resetBlock, List.map_const']
  rfl

end Sys2Proof.Machine
end

section
/-! PROOFS. The invariant of the channels: what each move writes into a channel is legal (R25 to R27, R30 to R32, R35). -/

namespace Sys2Proof.Machine

/-- `Channel.legal` as a proposition, clause by clause. -/
theorem Channel.legal_iff {ch : Channel} :
    ch.legal = true ↔
      legalReport ch.status ch.info = true ∧
      (ch.status = statusOk ∨ ch.out = []) ∧
      (ch.busy = false ∨ ch.resultValid = false) ∧
      (ch.busy = true ∨ (ch.cmd = 0 ∧ ch.a = [] ∧ ch.b = [] ∧ ch.c = [])) ∧
      (ch.resultValid = true ∨ (ch.status = statusOk ∧ ch.info = 0x00 ∧ ch.out = [])) := by
  simp [Channel.legal, and_assoc]

/-- R25, R26: the empty report is that of success. -/
theorem legalReport_ok : legalReport statusOk 0x00 = true := rfl

theorem Channel.legal_reset : Channel.reset.legal = true := rfl

/-- R30: a channel just submitted to is legal, whatever it latches. -/
theorem Channel.legal_submitted (cmd : CommandWord) (a b c : Bytes) : (Channel.submitted cmd a b c).legal = true :=
  Channel.legal_iff.2 ⟨legalReport_ok, .inl rfl, .inr rfl, .inl rfl, .inr ⟨rfl, rfl, rfl⟩⟩

/-- R32: a legal idle channel stays legal when its result is collected; its latches are empty already. -/
theorem Channel.legal_collected {ch : Channel} (hlegal : ch.legal = true) (hidle : ch.busy = false) :
    ch.collected.legal = true := by
  obtain ⟨-, -, -, hlatches, -⟩ := Channel.legal_iff.1 hlegal
  exact Channel.legal_iff.2 ⟨legalReport_ok, .inl rfl, .inl hidle, hlatches, .inr ⟨rfl, rfl, rfl⟩⟩

/-- R31: a channel that has executed is legal when its report is; its result is dropped beside an error (R27). -/
theorem Channel.legal_executed {r : Completion} (hreport : legalReport r.status r.info = true) :
    (Channel.executed r).legal = true := by
  have hout : r.status = statusOk ∨ (Channel.executed r).out = [] :=
    (em (r.status = statusOk)).imp_right fun herror => by simp [herror]
  exact Channel.legal_iff.2 ⟨hreport, hout, .inl rfl, .inr ⟨rfl, rfl, rfl, rfl⟩, .inl rfl⟩

/-- R301, R302: the report of a result is legal when that of its error, if it is one, is. -/
theorem legalReport_ofResult {r : Except CommandError Bytes}
    (herror : ∀ e, r = .error e → legalReport (errorStatus e) (errorInfo e) = true) :
    legalReport (Completion.ofResult r).status (Completion.ofResult r).info = true := by
  cases r with
  | ok out => exact legalReport_ok
  | error e => exact herror e rfl

/-- Writing a legal channel keeps the invariant. -/
theorem State.Inv.of_set {s t : State} {k : Nat} {ch : Channel} (hinv : s.Inv) (hlegal : ch.legal = true)
    (hset : t.channels = s.channels.set k ch) : t.Inv := by
  obtain ⟨hlength, hall⟩ := hinv
  refine ⟨by rw [hset, List.length_set, hlength], fun x hx => ?_⟩
  rw [hset] at hx
  rcases List.mem_or_eq_of_mem_set hx with hold | rfl
  · exact hall x hold
  · exact hlegal

/-- A channel of a state that meets the invariant is legal. -/
theorem State.Inv.legal {s : State} {k : Nat} {ch : Channel} (hinv : s.Inv) (hch : s.channel? k = some ch) :
    ch.legal = true :=
  hinv.2 ch (List.mem_of_getElem? hch)

/-- Settles O37: by what the step did to the channels (`Moved`); each channel it writes is legal. -/
theorem everyStepKeepsTheInvariant : Obligations.EveryStepKeepsTheInvariant := by
  intro s t hinv hstep
  cases moved_of_step hstep with
  | ran k ch agenda r d hch hbusy hd hagenda hr =>
    refine hinv.of_set (Channel.legal_executed (legalReport_ofResult ?_)) rfl
    rcases hr with ⟨i, -, rfl, -⟩ | ⟨e, -, rfl, -⟩
    · exact fun _ herror => legalReport_ownError (raisesOwn_commandResult _ herror)
    · rintro _ ⟨⟩
      exact legalReport_decodeError e
  | submitted k ch cmd a b c rest hagenda hch hbusy => exact hinv.of_set (Channel.legal_submitted cmd a b c) rfl
  | collected k ch rest hagenda hch hbusy hvalid =>
    exact hinv.of_set (Channel.legal_collected (hinv.legal hch) hbusy) rfl
  | passed m rest replies hagenda => exact hinv
  | reset rest hagenda =>
    refine ⟨by rw [List.length_map, hinv.1], fun x hx => ?_⟩
    obtain ⟨_, -, rfl⟩ := List.mem_map.1 hx
    exact Channel.legal_reset
  | idle hagenda hbusy => exact hinv

/-- Settles O38: every channel of the reset state is `Channel.reset`. -/
theorem resetMeetsTheInvariant : Obligations.ResetMeetsTheInvariant :=
  ⟨State.length_reset_channels, fun _ hch => State.eq_reset_of_mem_reset_channels hch ▸ Channel.legal_reset⟩

end Sys2Proof.Machine
end

section
/-! PROOFS. What a command depends on and what it leaves alone (R22, R28, R29, R31, R61, R79). -/

namespace Sys2Proof.Machine

/-- Settles O34: exec writes the active channel and the draw counter, and nothing else. -/
theorem commandsLeaveEverythingElseUnchanged : Obligations.CommandsLeaveEverythingElseUnchanged := by
  intro i s t hexec
  obtain ⟨ch, hch, rfl⟩ := exec_next_cases hexec
  exact ⟨rfl, rfl, rfl, List.length_set, fun k hk => s.channel?_setChannel_ne _ (Ne.symm hk),
    _, _, _, State.channel?_setChannel_executed hch _⟩

/-- R31: what exec makes of the active channel and the draw counter. -/
theorem exec_own_channel {i : Instr} {s t : State} (hexec : exec i s = .next t) :
    ∃ ch, s.channel? s.active = some ch ∧
      t.channel? s.active =
        some (Channel.executed (Completion.ofResult (commandResult Config.params i ch.a ch.b ch.c s.iv))) ∧
      t.draws = s.draws + drawsOf i (commandResult Config.params i ch.a ch.b ch.c s.iv) := by
  obtain ⟨ch, hch, rfl⟩ := exec_next_cases hexec
  exact ⟨ch, hch, s.channel?_setChannel_self _ hch, rfl⟩

/-- Settles O41: equal channels and equal draw counters give equal operands and an equal draw. -/
theorem resultDependsOnlyOnOwnChannelAndDraw : Obligations.ResultDependsOnlyOnOwnChannelAndDraw := by
  intro i s s' t t' hsame hdraws hexec hexec'
  obtain ⟨ch, hch, hown, hcount⟩ := exec_own_channel hexec
  obtain ⟨ch', hch', hown', hcount'⟩ := exec_own_channel hexec'
  obtain rfl : ch = ch' := Option.some.inj (by rw [← hch, hsame, hch'])
  have hiv : s.iv = s'.iv := by rw [State.iv, State.iv, hdraws]
  exact ⟨by rw [hown, hown', hiv], by rw [hcount, hcount', hiv, hdraws]⟩

/-- R79: the size check sees only the operands it is given to check. -/
theorem checkSizes_congr {p : Params} {a b c a' b' c' : Bytes} {xs : List OperandName}
    (hsame : ∀ x ∈ xs, operand x a b c = operand x a' b' c') : checkSizes p a b c xs = checkSizes p a' b' c' xs := by
  induction xs with
  | nil => rfl
  | cons x xs ih =>
    obtain ⟨hx, hxs⟩ := List.forall_mem_cons.1 hsame
    rw [checkSizes, checkSizes, hx, ih hxs]

/-- Settles O43: the size check sees the operands read only, and past it each command's rule names no other. -/
theorem unreadOperandsAreIgnored : Obligations.UnreadOperandsAreIgnored := by
  intro p i a b c a' b' c' iv hsame
  have hsizes : checkSizes p a b c (reads i) = checkSizes p a' b' c' (reads i) := checkSizes_congr hsame
  have ha : .a ∈ reads i → a = a' := hsame .a
  have hb : .b ∈ reads i → b = b' := hsame .b
  have hc : .c ∈ reads i → c = c' := hsame .c
  cases i
  case digestSha256 | digestSha512 | pkcs7Pad | pkcs7Unpad =>
    cases ha (by decide)
    exact congrArg (· >>= _) hsizes
  case aesKeyExpand =>
    cases hb (by decide)
    exact congrArg (· >>= _) hsizes
  case deriveKeyAes256 =>
    cases hb (by decide)
    cases hc (by decide)
    exact congrArg (· >>= _) hsizes
  case ivPrepend =>
    cases ha (by decide)
    cases hc (by decide)
    exact congrArg (· >>= _) hsizes
  case encryptAes256 | decryptAes256 =>
    cases ha (by decide)
    cases hb (by decide)
    exact congrArg (· >>= _) hsizes
  case encryptPhraseAes256 | decryptPhraseAes256 | aesCbcEncrypt | aesCbcDecrypt =>
    cases ha (by decide)
    cases hb (by decide)
    cases hc (by decide)
    rfl

end Sys2Proof.Machine
end

section
/-! PROOFS. Two turns on different channels commute (R61): a turn as a function of its channel and the draw alone. -/

namespace Sys2Proof.Machine

/-- R31, R80: the result of a channel's latched word, and the draws it takes. -/
def Channel.wordResult (ch : Channel) (iv : Bytes) : Except CommandError Bytes × Nat :=
  match decode ch.cmd with
  | .ok i =>
    (commandResult Config.params i ch.a ch.b ch.c iv, drawsOf i (commandResult Config.params i ch.a ch.b ch.c iv))
  | .error e => (.error (decodeErrorOf e), 0)

/-- R31: what a turn makes of its channel, and the draws it takes; a turn of an idle channel passes (log 9). -/
def Channel.turn (ch : Channel) (iv : Bytes) : Channel × Nat :=
  if ch.busy then (Channel.executed (Completion.ofResult (ch.wordResult iv).1), (ch.wordResult iv).2) else (ch, 0)

theorem Channel.turn_busy {ch : Channel} {iv : Bytes} (hbusy : ch.busy = true) :
    ch.turn iv = (Channel.executed (Completion.ofResult (ch.wordResult iv).1), (ch.wordResult iv).2) := if_pos hbusy

theorem Channel.turn_idle {ch : Channel} {iv : Bytes} (hidle : ch.busy = false) : ch.turn iv = (ch, 0) := by
  simp [Channel.turn, hidle]

/-- The EXECUTE step writes its channel's turn into the channel and the draw counter. -/
theorem executeChannel_eq_wordResult {s : State} {k : Nat} {ch : Channel} (hch : s.channel? k = some ch) :
    executeChannel k ch s = .next
      { s with
        channels := s.channels.set k (Channel.executed (Completion.ofResult (ch.wordResult s.iv).1))
        active := k
        draws := s.draws + (ch.wordResult s.iv).2 } := by
  obtain ⟨r, d, -, hr, hnext⟩ := executeChannel_eq_next hch
  have hword : ch.wordResult s.iv = (r, d) := by
    rcases hr with ⟨i, hdecode, rfl, rfl⟩ | ⟨e, hdecode, rfl, rfl⟩ <;> simp [Channel.wordResult, hdecode]
  rw [hnext, hword]

/-- The inversion lemma of an execute turn. -/
theorem step_execute_cases {s t : State} {k : Nat} {rest : List Move} (hagenda : s.agenda = .execute k :: rest)
    (hstep : step s = .next t) :
    ∃ ch, s.channel? k = some ch ∧ t.agenda = rest ∧ t.channels = s.channels.set k (ch.turn s.iv).1 ∧
      t.draws = s.draws + (ch.turn s.iv).2 := by
  cases hch : s.channel? k with
  | none =>
    rw [step_execute_fault hagenda hch] at hstep
    cases hstep
  | some ch =>
    refine ⟨ch, rfl, ?_⟩
    cases hbusy : ch.busy with
    | true =>
      rw [step_execute_busy hagenda hch hbusy, executeChannel_eq_wordResult (s := { s with agenda := rest }) hch] at hstep
      cases hstep
      rw [Channel.turn_busy hbusy]
      exact ⟨rfl, rfl, rfl⟩
    | false =>
      rw [step_execute_idle hagenda hch hbusy] at hstep
      cases hstep
      rw [Channel.turn_idle hbusy]
      obtain ⟨hk, rfl⟩ := List.getElem?_eq_some_iff.1 hch
      exact ⟨rfl, (List.set_getElem_self hk).symm, rfl⟩

/-- R264: a command that takes no draw does not see one. -/
theorem commandResult_of_takesDraw_eq_false {i : Instr} (hdraw : takesDraw i = false) (p : Params) (a b c iv iv' : Bytes) :
    commandResult p i a b c iv = commandResult p i a b c iv' := by
  cases i
  case encryptAes256 | encryptPhraseAes256 => cases hdraw
  all_goals rfl

/-- The turn of a channel whose word takes no draw leaves the counter and is the same under every draw. -/
theorem Channel.turn_of_no_draw {ch : Channel} (hdraw : ∀ i, decode ch.cmd = .ok i → takesDraw i = false) (iv iv' : Bytes) :
    ch.turn iv = ((ch.turn iv').1, 0) := by
  have hword : ch.wordResult iv = ((ch.wordResult iv').1, 0) := by
    unfold Channel.wordResult
    cases hdecode : decode ch.cmd with
    | ok i =>
      simp [drawsOf, hdraw i hdecode, commandResult_of_takesDraw_eq_false (hdraw i hdecode) _ ch.a ch.b ch.c iv iv']
    | error e => rfl
  cases hbusy : ch.busy with
  | true => rw [Channel.turn_busy hbusy, Channel.turn_busy hbusy, hword]
  | false => rw [Channel.turn_idle hbusy, Channel.turn_idle hbusy]

/-- A run that goes on has made its first step. -/
theorem run_succ_cases {M : Host.Core} {n : Nat} {s t : M.State} (hrun : M.run (n + 1) s = .next t) :
    ∃ m, M.step s = .next m ∧ M.run n m = .next t := by
  rw [Host.Core.run] at hrun
  cases hstep : M.step s with
  | next m => exact ⟨m, rfl, by rwa [hstep] at hrun⟩
  | fault r => simp [hstep] at hrun
  | refused r => simp [hstep] at hrun

/-- The same for the machine, whose step is `step`. -/
theorem core_run_succ_cases {n : Nat} {s t : State} (hrun : Host.Core.run Sys2Proof.core (n + 1) s = .next t) :
    ∃ m : State, step s = .next m ∧ Host.Core.run Sys2Proof.core n m = .next t :=
  run_succ_cases (M := Sys2Proof.core) hrun

/-- A run of two execute turns on different channels: each channel takes its turn as it stood at the start, the second under
the draw that the first has left. -/
theorem run_execute_execute_cases {s t : State} {j k : Nat} (hjk : j ≠ k)
    (hrun : Host.Core.run Sys2Proof.core 2 ({ s with agenda := [.execute j, .execute k] } : State) = .next t) :
    ∃ chj chk, s.channel? j = some chj ∧ s.channel? k = some chk ∧
      t.channels = (s.channels.set j (chj.turn s.iv).1).set k
        (chk.turn (Config.draw (s.draws + (chj.turn s.iv).2)).toList).1 ∧
      t.draws = s.draws + (chj.turn s.iv).2 + (chk.turn (Config.draw (s.draws + (chj.turn s.iv).2)).toList).2 := by
  obtain ⟨m, hfirst, hrest⟩ := core_run_succ_cases hrun
  obtain ⟨_, hsecond, hdone⟩ := core_run_succ_cases hrest
  cases hdone
  obtain ⟨chj, hchj, hagenda, hchannels, hdraws⟩ := step_execute_cases rfl hfirst
  obtain ⟨chk, hchk, -, htchannels, htdraws⟩ := step_execute_cases hagenda hsecond
  have hold : m.channel? k = s.channel? k := by
    rw [State.channel?, hchannels]
    exact s.channel?_setChannel_ne _ hjk
  rw [State.iv, hdraws] at htchannels htdraws
  rw [hchannels] at htchannels
  exact ⟨chj, chk, hchj, hold ▸ hchk, htchannels, htdraws⟩

/-- Settles O42: the channel without a draw leaves the counter for the other and does not see it, so each channel's turn is the
same in both orders; the two writes are to different places. -/
theorem executionsOnTwoChannelsCommute : Obligations.ExecutionsOnTwoChannelsCommute := by
  intro s t t' j k hjk hdraw hrun hrun'
  obtain ⟨chj, chk, hchj, hchk, hchannels, hdraws⟩ := run_execute_execute_cases hjk hrun
  obtain ⟨chk', chj', hchk', hchj', hchannels', hdraws'⟩ := run_execute_execute_cases (Ne.symm hjk) hrun'
  obtain rfl : chj = chj' := Option.some.inj (hchj.symm.trans hchj')
  obtain rfl : chk = chk' := Option.some.inj (hchk.symm.trans hchk')
  have hturn (iv : Bytes) : chj.turn iv = ((chj.turn s.iv).1, 0) :=
    Channel.turn_of_no_draw (fun i => hdraw chj i hchj) iv s.iv
  have hcount : (chj.turn s.iv).2 = 0 := by rw [hturn]
  rw [hcount, Nat.add_zero, ← State.iv] at hchannels hdraws
  rw [hturn] at hchannels' hdraws'
  exact ⟨by rw [hchannels, hchannels', List.set_comm _ _ hjk], by rw [hdraws, hdraws', Nat.add_zero]⟩

end Sys2Proof.Machine
end

section
/-! PROOFS. The encoding (R70 to R76): a command word is its three fields, and the words that decode are the thirteen of R76. -/

namespace Sys2Proof

/-- R70: the three fields make up the whole command word. -/
theorem CommandWord.eq_of_fields {w v : CommandWord} (hop : opField w = opField v) (halg : algField w = algField v)
    (hrsv : rsvField w = rsvField v) : w = v := by
  simp only [opField, algField, rsvField, ← BitVec.toNat_inj, BitVec.extractLsb'_toNat, Nat.shiftRight_eq_div_pow]
    at hop halg hrsv
  apply BitVec.eq_of_toNat_eq
  have hw : w.toNat < 2 ^ 32 := w.isLt
  have hv : v.toNat < 2 ^ 32 := v.isLt
  omega

theorem rsvField_encode (i : Instr) : rsvField (encode i) = 0 := by cases i <;> rfl

/-- R72: the case list names a command at the `OP` and `ALG` of its word only. -/
theorem fields_of_instrOf {op alg : Byte} {i : Instr} (h : instrOf op alg = some i) :
    op = opField (encode i) ∧ alg = algField (encode i) := by
  unfold instrOf at h
  iterate 13
    obtain ⟨hcase, hi⟩ | ⟨-, h⟩ := ite_eq_iff.1 h
    · cases hi
      exact hcase
  cases h

theorem decode_encode (i : Instr) : decode (encode i) = .ok i := by cases i <;> rfl

/-- R80: a word decodes through the case list, past the check on `RSV`. -/
theorem decode_eq_ok {w : CommandWord} {i : Instr} (h : decode w = .ok i) :
    rsvField w = 0 ∧ instrOf (opField w) (algField w) = some i := by
  unfold decode at h
  dsimp only at h
  split_ifs at h with hop hrsv hstage
  refine ⟨not_not.1 hrsv, ?_⟩
  split at h
  · cases h
    assumption
  · cases h

/-- Settles O2: the case list fixes `OP` and `ALG`, the check before it `RSV`, and the three fields fix the word. -/
theorem wordDecodesExactlyWhenItIsTheEncoding : Obligations.WordDecodesExactlyWhenItIsTheEncoding := by
  intro w i
  constructor
  · intro hdecode
    obtain ⟨hrsv, hcase⟩ := decode_eq_ok hdecode
    obtain ⟨hop, halg⟩ := fields_of_instrOf hcase
    exact CommandWord.eq_of_fields hop halg (hrsv.trans (rsvField_encode i).symm)
  · rintro rfl
    exact decode_encode i

/-- Settles O1: the words written out are those of `encode`. -/
theorem legalWordsDecodeToTheirCommands : Obligations.LegalWordsDecodeToTheirCommands :=
  ⟨decode_encode .digestSha256, decode_encode .digestSha512, decode_encode .deriveKeyAes256, decode_encode .encryptAes256,
    decode_encode .encryptPhraseAes256, decode_encode .decryptAes256, decode_encode .decryptPhraseAes256,
    decode_encode .aesKeyExpand, decode_encode .aesCbcEncrypt, decode_encode .aesCbcDecrypt, decode_encode .pkcs7Pad,
    decode_encode .pkcs7Unpad, decode_encode .ivPrepend⟩

end Sys2Proof
end

section
/-! PROOFS. Every command is its size checks, then its operand checks, then a computation (R77, R80, R306). -/

namespace Sys2Proof.Machine

/-- R77, R306 step 4: the checks of a command on its operands, but for their sizes. -/
def operandsCheck : Instr → (a b c : Bytes) → Except CommandError Unit
  | .digestSha256, a, _, _ => requireNonEmpty .a a
  | .digestSha512, a, _, _ => requireNonEmpty .a a
  | .deriveKeyAes256, _, b, _ => requireNonEmpty .b b
  | .encryptAes256, a, b, _ => requireNonEmpty .a a >>= fun _ => requireRawKey b
  | .encryptPhraseAes256, a, b, _ => requireNonEmpty .a a >>= fun _ => requireNonEmpty .b b
  | .decryptAes256, a, b, _ => checkEnvelope a >>= fun _ => requireRawKey b
  | .decryptPhraseAes256, a, b, _ => checkEnvelope a >>= fun _ => requireNonEmpty .b b
  | .aesKeyExpand, _, b, _ => requireRawKey b
  | .aesCbcEncrypt, a, b, c => checkCbcOperands a b c
  | .aesCbcDecrypt, a, b, c => checkCbcOperands a b c
  | .pkcs7Pad, _, _, _ => .ok ()
  | .pkcs7Unpad, a, _, _ => requireWholeBlocks a
  | .ivPrepend, _, _, c => requireIv c

/-- R130 to R283: what a command computes once its checks have passed. -/
def computation (p : Params) : Instr → (a b c iv : Bytes) → Except CommandError Bytes
  | .digestSha256, a, _, _, _ => .ok (sha256 a)
  | .digestSha512, a, _, _, _ => .ok (sha512 a)
  | .deriveKeyAes256, _, b, c, _ => .ok (kdf p b c)
  | .encryptAes256, a, b, _, iv => .ok (encryptEnvelope a b iv)
  | .encryptPhraseAes256, a, b, c, iv => .ok (encryptEnvelope a (kdf p b c) iv)
  | .decryptAes256, a, b, _, _ => decryptEnvelope a b
  | .decryptPhraseAes256, a, b, c, _ => decryptEnvelope a (kdf p b c)
  | .aesKeyExpand, _, b, _, _ => .ok (keyExpansion b).flatten
  | .aesCbcEncrypt, a, b, c, _ => .ok (cbcEncrypt a b c)
  | .aesCbcDecrypt, a, b, c, _ => .ok (cbcDecrypt a b c)
  | .pkcs7Pad, a, _, _, _ => .ok (pkcs7PadBytes a)
  | .pkcs7Unpad, a, _, _, _ => unpadResult a
  | .ivPrepend, a, _, c, _ => .ok (ivPrependBytes c a)

/-- R77, R306 steps 3 and 4: all the checks of a command on its operands, in order. -/
def inputChecks (p : Params) (i : Instr) (a b c : Bytes) : Except CommandError Unit :=
  checkSizes p a b c (reads i) >>= fun _ => operandsCheck i a b c

variable {p : Params} {i : Instr} {a b c iv : Bytes} {e : CommandError} {u : Unit}

/-- Where a command takes its key from B, the check of the key and its use fall into the two parts. -/
theorem commandResult_eq_bind (p : Params) (i : Instr) (a b c iv : Bytes) :
    commandResult p i a b c iv = inputChecks p i a b c >>= fun _ => computation p i a b c iv := by
  cases i
  case encryptAes256 | encryptPhraseAes256 | decryptAes256 | decryptPhraseAes256 =>
    simp [commandResult, inputChecks, operandsCheck, computation, runEncryptAes256, runEncryptPhraseAes256,
      runDecryptAes256, runDecryptPhraseAes256, cmdEncrypt, cmdEncryptPhrase, cmdDecrypt, cmdDecryptPhrase, keyFromRaw,
      keyFromPhrase]
  case pkcs7Pad => simp [commandResult, inputChecks, operandsCheck, computation, runPkcs7Pad, cmdPad]
  all_goals exact (bind_assoc _ _ _).symm

theorem operandsCheck_eq_ok : operandsCheck i a b c = .ok u ↔ lengthsLegal i a b c = true := by
  cases i <;>
    simp [operandsCheck, lengthsLegal, checkCbcOperands, bind_eq_ok, requireNonEmpty_eq_ok, requireRawKey_eq_ok,
      requireWholeBlocks_eq_ok, requireIv_eq_ok, checkEnvelope_eq_ok, and_assoc]

theorem checkSizes_reads_eq_ok : checkSizes p a b c (reads i) = .ok u ↔ sizesLegal p i a b c = true := by
  cases i <;> simp [checkSizes_eq_ok, reads, operand, sizesLegal, and_assoc]

theorem inputChecks_eq_ok : inputChecks p i a b c = .ok u ↔ WellFormed p i a b c = true := by
  simp [inputChecks, bind_eq_ok, checkSizes_reads_eq_ok, operandsCheck_eq_ok, WellFormed]

/-- A command gives a result exactly where it is well formed and its computation gives that result. -/
theorem commandResult_eq_ok {out : Bytes} :
    commandResult p i a b c iv = .ok out ↔ WellFormed p i a b c = true ∧ computation p i a b c iv = .ok out := by
  simp [commandResult_eq_bind, bind_eq_ok, inputChecks_eq_ok]

theorem unpadResult_error {x : Bytes} (h : unpadResult x = .error e) : e = .decryptionFailure := by
  unfold unpadResult at h
  split at h <;> cases h
  rfl

theorem decryptEnvelope_error {env k : Bytes} (h : decryptEnvelope env k = .error e) : e = .decryptionFailure := by
  obtain h | ⟨_, -, h⟩ := bind_eq_error.1 h
  · exact (raiseIf_eq_error.1 h).2.symm
  · exact unpadResult_error h

/-- R272: past its checks a command raises nothing but a decryption failure. -/
theorem computation_error (h : computation p i a b c iv = .error e) : e = .decryptionFailure := by
  cases i
  case decryptAes256 | decryptPhraseAes256 => exact decryptEnvelope_error h
  case pkcs7Unpad => exact unpadResult_error h
  all_goals cases h

theorem requireNonEmpty_ne_decryptionFailure {x : OperandName} {v : Bytes} :
    requireNonEmpty x v ≠ .error .decryptionFailure := by
  simp [requireNonEmpty, raiseIf_eq_error]

theorem requireRawKey_ne_decryptionFailure : requireRawKey b ≠ .error .decryptionFailure := by
  simp [requireRawKey, bind_eq_error, raiseIf_eq_error, requireNonEmpty_ne_decryptionFailure]

/-- No check on the operands raises a decryption failure. -/
theorem inputChecks_ne_decryptionFailure : inputChecks p i a b c ≠ .error .decryptionFailure := by
  intro h
  obtain h | ⟨_, -, h⟩ := bind_eq_error.1 h
  · obtain ⟨_, -, he⟩ := checkSizes_error h
    cases he
  · revert h
    cases i <;>
      simp [operandsCheck, checkCbcOperands, requireWholeBlocks, requireIv, checkEnvelope, bind_eq_error, raiseIf_eq_error,
        requireNonEmpty_ne_decryptionFailure, requireRawKey_ne_decryptionFailure]

/-- Settles O45: a well-formed command goes through its checks to its computation, and one that is not well formed ends in
the error of a check. -/
theorem wellFormedCommandsRaiseNoInputError : Obligations.WellFormedCommandsRaiseNoInputError := by
  intro p i a b c iv
  rw [commandResult_eq_bind, ← inputChecks_eq_ok (u := ())]
  cases hchecks : inputChecks p i a b c with
  | ok => simpa using fun _ => computation_error
  | error e =>
    have hinput : e ≠ .decryptionFailure := by
      rintro rfl
      exact inputChecks_ne_decryptionFailure hchecks
    simpa using hinput

end Sys2Proof.Machine
end

section
/-! PROOFS. The machine against the priority table of R306 (`Claim.run`): the first check of the table that is violated is the
error that the machine raises. -/

namespace Sys2Proof.Machine

open Sys2Proof.Claim

/-- R306: the report of the first check of a table that is violated. -/
def firstViolation (table : List (Bool × Byte × Byte)) : Option (Byte × Byte) := (table.find? (·.1)).map (·.2)

/-- R301: the report of the error that a computation raises. -/
def errorReport {α : Type} : Except CommandError α → Option (Byte × Byte)
  | .ok _ => none
  | .error e => some (errorStatus e, errorInfo e)

@[simp] theorem firstViolation_nil : firstViolation [] = none := rfl

@[simp] theorem firstViolation_cons (q : Bool) (r : Byte × Byte) (table : List (Bool × Byte × Byte)) :
    firstViolation ((q, r) :: table) = if q then some r else firstViolation table := by
  cases q <;> simp [firstViolation]

theorem firstViolation_append (t t' : List (Bool × Byte × Byte)) :
    firstViolation (t ++ t') = (firstViolation t).or (firstViolation t') := by
  simp [firstViolation, List.find?_append, Option.map_or]

@[simp] theorem errorReport_ok {α : Type} (x : α) : errorReport (.ok x) = none := rfl

@[simp] theorem errorReport_error {α : Type} (e : CommandError) :
    errorReport (.error e : Except CommandError α) = some (errorStatus e, errorInfo e) := rfl

@[simp] theorem errorReport_raiseIf (q : Bool) (e : CommandError) :
    errorReport (raiseIf q e) = if q then some (errorStatus e, errorInfo e) else none := by
  cases q <;> rfl

@[simp] theorem errorReport_raiseIf_bind {α : Type} (q : Bool) (e : CommandError) (y : Unit → Except CommandError α) :
    errorReport (raiseIf q e >>= y) = if q then some (errorStatus e, errorInfo e) else errorReport (y ()) := by
  cases q <;> rfl

theorem errorReport_checkSizes_nil (p : Params) (a b c : Bytes) : errorReport (checkSizes p a b c []) = none := rfl

theorem errorReport_checkSizes_cons (p : Params) (a b c : Bytes) (x : OperandName) (xs : List OperandName) :
    errorReport (checkSizes p a b c (x :: xs)) =
      if p.maxLen < (operand x a b c).length then some (0x01, errorInfo (.inputValidation .tooLong x))
      else errorReport (checkSizes p a b c xs) := by
  simp [checkSizes, errorStatus]

theorem errorReport_bind {α β : Type} (x : Except CommandError α) (y : Except CommandError β) :
    errorReport (x >>= fun _ => y) = (errorReport x).or (errorReport y) := by
  cases x <;> rfl

/-- R77, R79: the size checks of the table are those of the operands that the command reads. -/
theorem firstViolation_sizeChecks (p : Params) (i : Instr) (a b c : Bytes) :
    firstViolation (sizeChecks p.maxLen (opField (encode i)) a b c) = errorReport (checkSizes p a b c (reads i)) := by
  cases i <;>
    simp [sizeChecks, reads, errorReport_checkSizes_nil, errorReport_checkSizes_cons, operand, opField, encode, errorInfo, reasonCode,
      operandCode] <;>
    rfl

theorem firstViolation_operandChecks (i : Instr) (a b c : Bytes) :
    firstViolation (operandChecks (opField (encode i)) a b c) = errorReport (operandsCheck i a b c) := by
  cases i <;>
    simp [operandChecks, operandsCheck, checkCbcOperands, checkEnvelope, requireWholeBlocks, requireRawKey, requireIv,
      requireNonEmpty, legalKeyLength, opField, encode, errorStatus, errorInfo, reasonCode, operandCode, and_assoc]

theorem toOption_unpadResult (x : Bytes) : (unpadResult x).toOption = pkcs7UnpadBytes x := by
  unfold unpadResult
  cases pkcs7UnpadBytes x <;> rfl

/-- R268, R272: an envelope of more than 16 bytes has whole blocks behind its IV exactly when its own length is a multiple of
16. -/
theorem toOption_decryptEnvelope {env : Bytes} (k : Bytes) (hlength : 16 < env.length) :
    (decryptEnvelope env k).toOption =
      if env.length % 16 = 0 then pkcs7UnpadBytes (cbcDecrypt (env.drop 16) k (env.take 16)) else none := by
  have hblocks : (env.length - 16) % 16 = env.length % 16 := by omega
  rw [← toOption_unpadResult]
  have hraise : (raiseIf ((env.drop 16).length % 16 != 0) .decryptionFailure) =
      if env.length % 16 = 0 then .ok () else .error .decryptionFailure := by
    by_cases hwhole : env.length % 16 = 0 <;> simp [raiseIf, hblocks, hwhole]
  simp only [decryptEnvelope, splitEnvelope, hraise]
  split <;> rfl

/-- R130 to R283: past the checks, what the table computes is what the command computes. -/
theorem computed_encode {p : Params} {i : Instr} {a b c : Bytes} (iv : Bytes) (hlengths : lengthsLegal i a b c = true) :
    computed p (opField (encode i)) (algField (encode i)) a b c iv = (computation p i a b c iv).toOption := by
  cases i
  case decryptAes256 | decryptPhraseAes256 =>
    obtain ⟨henvelope, -⟩ := Bool.and_eq_true_iff.1 hlengths
    exact (toOption_decryptEnvelope _ (of_decide_eq_true henvelope)).symm
  case pkcs7Unpad => exact (toOption_unpadResult a).symm
  all_goals rfl

/-- R71: the assigned `OP` values are those of the digests, of the ciphers and the key derivation, and of the stages. -/
theorem mem_assignedOps_cases {op : Byte} (hop : op ∈ assignedOps) : op = 0x01 ∨ op ∈ cipherOps ∨ op ∈ stageOps :=
  (List.mem_cons.1 (show op ∈ 0x01 :: (cipherOps ++ stageOps) from hop)).imp_right List.mem_append.1

theorem mem_assignedOps_of_stage {op : Byte} (hop : op ∈ stageOps) : op ∈ assignedOps := List.mem_of_mem_drop (i := 6) hop

/-- R80: the decoder's two groups of `OP` values are the table's assigned ones. -/
theorem isTopLevel_or_isStage (op : Byte) : (isTopLevel op || isStage op) = assignedOps.contains op := by
  simp [isTopLevel, isStage, assignedOps, Bool.or_assoc]

theorem isStage_iff {op : Byte} : isStage op = true ↔ op ∈ stageOps := List.contains_iff_mem

theorem firstViolation_reservedOp {op alg : Byte} {rsv : BitVec 16} (hop : op ∉ assignedOps) :
    firstViolation (wordChecks op alg rsv) = some (0x06, 0x01) := by
  simp [wordChecks, hop]

theorem firstViolation_rsvNonzero {op alg : Byte} {rsv : BitVec 16} (hop : op ∈ assignedOps) (hrsv : rsv ≠ 0) :
    firstViolation (wordChecks op alg rsv) = some (0x06, 0x03) := by
  rw [wordChecks, bne_iff_ne.2 hrsv]
  simp [hop]

theorem firstViolation_stageAlg {op alg : Byte} (hop : op ∈ stageOps) (halg : alg ≠ 0) :
    firstViolation (wordChecks op alg 0) = some (0x06, 0x02) := by
  rw [wordChecks, bne_iff_ne.2 halg]
  simp [hop, mem_assignedOps_of_stage hop]

theorem firstViolation_digestAlg {alg : Byte} (hthree : alg ≠ 3) (hfive : alg ≠ 5) :
    firstViolation (wordChecks 0x01 alg 0) = some (0x02, alg) := by
  rw [wordChecks, bne_iff_ne.2 hthree, bne_iff_ne.2 hfive]
  rfl

theorem firstViolation_cipherAlg {op alg : Byte} (hop : op ∈ cipherOps) (halg : alg ≠ 2) :
    firstViolation (wordChecks op alg 0) = some (0x02, alg) := by
  rw [wordChecks, bne_iff_ne.2 halg]
  simp only [cipherOps, List.mem_cons, List.not_mem_nil, or_false] at hop
  rcases hop with rfl | rfl | rfl | rfl | rfl <;> rfl

/-- R72, R73: an assigned `OP` outside the case list, with no stage command's `ALG` to blame, is a top-level command with an
unsupported `ALG`. -/
theorem firstViolation_of_instrOf_eq_none {op alg : Byte} (hop : op ∈ assignedOps) (hstage : op ∈ stageOps → alg = 0)
    (hcase : instrOf op alg = none) : firstViolation (wordChecks op alg 0) = some (0x02, alg) := by
  have hcipher : ∀ x ∈ cipherOps, instrOf x 2 ≠ none := by decide
  have hstages : ∀ x ∈ stageOps, instrOf x 0 ≠ none := by decide
  obtain rfl | hop | hop := mem_assignedOps_cases hop
  · exact firstViolation_digestAlg (by rintro rfl; cases hcase) (by rintro rfl; cases hcase)
  · exact firstViolation_cipherAlg hop (by rintro rfl; exact hcipher op hop hcase)
  · obtain rfl := hstage hop
    exact absurd hcase (hstages op hop)

/-- R306 steps 1 and 2: the error of a word that does not decode is the first violation among the word checks. -/
theorem firstViolation_of_decode_error {w : CommandWord} {e : DecodeError} (hdecode : decode w = .error e) :
    firstViolation (wordChecks (opField w) (algField w) (rsvField w)) =
      some (errorStatus (decodeErrorOf e), errorInfo (decodeErrorOf e)) := by
  simp only [decode, isTopLevel_or_isStage, List.contains_iff_mem, isStage_iff] at hdecode
  split at hdecode
  next hop =>
    cases hdecode
    exact firstViolation_reservedOp hop
  next hop =>
  split at hdecode
  next hrsv =>
    cases hdecode
    exact firstViolation_rsvNonzero (not_not.1 hop) hrsv
  next hrsv =>
  rw [not_not.1 hrsv]
  split at hdecode
  next hstage =>
    cases hdecode
    exact firstViolation_stageAlg hstage.1 hstage.2
  next hstage =>
  split at hdecode <;> cases hdecode
  next hcase =>
  exact firstViolation_of_instrOf_eq_none (not_not.1 hop) (by simpa using hstage) hcase

/-- A word that decodes passes the word checks. -/
theorem firstViolation_wordChecks_encode (i : Instr) :
    firstViolation (wordChecks (opField (encode i)) (algField (encode i)) (rsvField (encode i))) = none := by
  cases i <;> rfl

/-- R306: all the checks of the table, in its order. -/
def tableChecks (p : Params) (w : CommandWord) (a b c : Bytes) : List (Bool × Byte × Byte) :=
  wordChecks (opField w) (algField w) (rsvField w) ++ sizeChecks p.maxLen (opField w) a b c ++ operandChecks (opField w) a b c

section Run

variable {p : Params} {w : CommandWord} {a b c iv : Bytes}

/-- R306: a violated check is the report. -/
theorem run_of_violation {r : Byte × Byte} (h : firstViolation (tableChecks p w a b c) = some r) :
    Claim.run p w a b c iv = (r.1, r.2, [], 0) := by
  obtain ⟨⟨q, r'⟩, hfind, rfl⟩ := Option.map_eq_some_iff.1 h
  simp only [tableChecks, opField, algField, rsvField] at hfind
  simp only [Claim.run, hfind]

/-- R306: a violated check on the word is the report, whatever the operands hold. -/
theorem run_of_wordChecks {r : Byte × Byte}
    (h : firstViolation (wordChecks (opField w) (algField w) (rsvField w)) = some r) :
    Claim.run p w a b c iv = (r.1, r.2, [], 0) :=
  run_of_violation (by simp [tableChecks, firstViolation_append, h])

theorem run_of_computed {out : Bytes} (hchecks : firstViolation (tableChecks p w a b c) = none)
    (hcomputed : computed p (opField w) (algField w) a b c iv = some out) :
    Claim.run p w a b c iv = (0x00, 0x00, out, if w.extractLsb' 0 8 = 0x03 ∨ w.extractLsb' 0 8 = 0x04 then 1 else 0) := by
  have hfind := Option.map_eq_none_iff.1 hchecks
  simp only [tableChecks, opField, algField, rsvField] at hfind hcomputed
  simp only [Claim.run, hfind, hcomputed]

theorem run_of_not_computed (hchecks : firstViolation (tableChecks p w a b c) = none)
    (hcomputed : computed p (opField w) (algField w) a b c iv = none) : Claim.run p w a b c iv = (0x04, 0x00, [], 0) := by
  have hfind := Option.map_eq_none_iff.1 hchecks
  simp only [tableChecks, opField, algField, rsvField] at hfind hcomputed
  simp only [Claim.run, hfind, hcomputed]

end Run

/-- R77, R79, R306: for the word of a command the first violation of the table is the error of the command's checks. -/
theorem firstViolation_tableChecks_encode (p : Params) (i : Instr) (a b c : Bytes) :
    firstViolation (tableChecks p (encode i) a b c) = errorReport (inputChecks p i a b c) := by
  rw [tableChecks, firstViolation_append, firstViolation_append, firstViolation_wordChecks_encode, Option.none_or,
    firstViolation_sizeChecks, firstViolation_operandChecks, inputChecks, errorReport_bind]

theorem drawsOf_ok (i : Instr) (out : Bytes) :
    drawsOf i (.ok out) = if opField (encode i) = 0x03 ∨ opField (encode i) = 0x04 then 1 else 0 := by
  cases i <;> rfl

theorem drawsOf_error (i : Instr) (e : CommandError) : drawsOf i (.error e) = 0 := ite_self 0

/-- A report and a number of draws, in the order of the table. -/
def Completion.withDraws (r : Completion) (draws : Nat) : Byte × Byte × Bytes × Nat := (r.status, r.info, r.out, draws)

/-- R306: for the word of a command the table says what the command reports and draws. -/
theorem run_encode (p : Params) (i : Instr) (a b c iv : Bytes) :
    Claim.run p (encode i) a b c iv =
      (Completion.ofResult (commandResult p i a b c iv)).withDraws (drawsOf i (commandResult p i a b c iv)) := by
  have htable := firstViolation_tableChecks_encode p i a b c
  rw [commandResult_eq_bind]
  cases hchecks : inputChecks p i a b c with
  | error e =>
    rw [hchecks] at htable
    rw [run_of_violation htable, except_error_bind, drawsOf_error]
    rfl
  | ok =>
    obtain ⟨-, hlengths⟩ := Bool.and_eq_true_iff.1 (inputChecks_eq_ok.1 hchecks)
    have hcomputed := computed_encode (p := p) iv hlengths
    rw [hchecks] at htable
    rw [except_ok_bind]
    cases hresult : computation p i a b c iv with
    | error e =>
      obtain rfl := computation_error hresult
      rw [hresult] at hcomputed
      rw [run_of_not_computed htable hcomputed, drawsOf_error]
      rfl
    | ok out =>
      rw [hresult] at hcomputed
      rw [run_of_computed htable hcomputed, drawsOf_ok]
      rfl

/-- R306: for every word, also one that encodes no operation, the table says what the channel's turn reports and draws. -/
theorem run_eq_wordResult (ch : Channel) (iv : Bytes) :
    Claim.run Config.params ch.cmd ch.a ch.b ch.c iv =
      (Completion.ofResult (ch.wordResult iv).1).withDraws (ch.wordResult iv).2 := by
  unfold Channel.wordResult
  cases hdecode : decode ch.cmd with
  | ok i =>
    rw [(wordDecodesExactlyWhenItIsTheEncoding _ _).1 hdecode]
    exact run_encode Config.params i ch.a ch.b ch.c iv
  | error e =>
    rw [run_of_wordChecks (firstViolation_of_decode_error hdecode)]
    rfl

/-- R31: what a turn leaves in its channel, in the form the statements write out; no error has a result to drop. -/
theorem executed_ofResult (r : Except CommandError Bytes) :
    Channel.executed (Completion.ofResult r) =
      reported (Completion.ofResult r).status (Completion.ofResult r).info (Completion.ofResult r).out := by
  cases r with
  | ok out => rfl
  | error e => simp [Channel.executed, reported, errorStatus_ne_ok]

/-- Settles O33: the turn writes the result of the channel's word, which is what the table says. -/
theorem executeFollowsThePriorityTable : Obligations.ExecuteFollowsThePriorityTable := by
  intro s k rest ch hagenda hch hbusy r
  have hr : r = (Completion.ofResult (ch.wordResult s.iv).1).withDraws (ch.wordResult s.iv).2 := run_eq_wordResult ch s.iv
  rw [step_execute_busy hagenda hch hbusy, executeChannel_eq_wordResult (s := { s with agenda := rest }) hch,
    executed_ofResult, hr]
  rfl

/-- Settles O3: each clause is a violated check on the word, which the table reports before it looks at the operands. -/
theorem illegalWordsCompleteWithTheirError : Obligations.IllegalWordsCompleteWithTheirError := by
  intro s k rest ch hagenda hch hbusy op alg rsv errs
  have herrs {status info : Byte} (hword : firstViolation (wordChecks op alg rsv) = some (status, info)) :
      errs status info := by
    have hturn := executeFollowsThePriorityTable s k rest ch hagenda hch hbusy
    rwa [run_of_wordChecks hword] at hturn
  refine ⟨fun hop => herrs (firstViolation_reservedOp hop), fun hop hrsv => herrs (firstViolation_rsvNonzero hop hrsv),
    fun hop hrsv halg => herrs ?_, fun hop hrsv hthree hfive => herrs ?_, fun hop hrsv halg => herrs ?_⟩
  · rw [hrsv]
    exact firstViolation_stageAlg hop halg
  · rw [hop, hrsv]
    exact firstViolation_digestAlg hthree hfive
  · rw [hrsv]
    exact firstViolation_cipherAlg hop halg

end Sys2Proof.Machine
end

section
/-! PROOFS. The lengths of the results (R77): each sub-block keeps blocks of 16 bytes, and each command's result follows. -/

namespace Sys2Proof.Machine

/-! #### Hashes -/

@[simp] theorem bytesBE_length (n v : Nat) : (bytesBE n v).length = n := by simp [bytesBE]

theorem ShaWords.toBytes_length {w : Nat} (n : Nat) (x : ShaWords w) : (x.toBytes n).length = 8 * n := by
  simp only [ShaWords.toBytes, List.length_flatMap, bytesBE_length, List.map_cons, List.map_nil, List.sum_cons, List.sum_nil]
  omega

@[simp] theorem sha256_length (m : Bytes) : (sha256 m).length = 32 := ShaWords.toBytes_length 4 _

@[simp] theorem sha512_length (m : Bytes) : (sha512 m).length = 64 := ShaWords.toBytes_length 8 _

@[simp] theorem kdf_length (p : Params) (phrase salt : Bytes) : (kdf p phrase salt).length = 32 := sha256_length _

/-! #### Strings of pieces of one length -/

theorem length_flatten_of_forall {n : Nat} {pieces : List Bytes} (h : ∀ x ∈ pieces, x.length = n) :
    pieces.flatten.length = n * pieces.length := by
  rw [List.length_flatten, List.map_congr_left h, List.map_const', List.sum_replicate_nat, Nat.mul_comm]

theorem piece_length {n i : Nat} {s : Bytes} (h : n * (i + 1) ≤ s.length) : (piece n s i).length = n := by
  rw [Nat.mul_succ] at h
  simp only [piece, List.length_take, List.length_drop]
  omega

/-- R10: the pieces that lie within a string are of full length. -/
theorem length_of_mem_pieces {n count : Nat} {s x : Bytes} (hcount : n * count ≤ s.length)
    (hx : x ∈ (List.range count).map (piece n s)) : x.length = n := by
  obtain ⟨i, hi, rfl⟩ := List.mem_map.1 hx
  exact piece_length ((Nat.mul_le_mul_left n (List.mem_range.1 hi)).trans hcount)

/-! #### The key schedule -/

theorem xorBytes_length (x y : Bytes) : (xorBytes x y).length = min x.length y.length := List.length_zipWith

theorem length_getD_of_forall {n i : Nat} {w : List Bytes} (hw : ∀ x ∈ w, x.length = n) (hi : i < w.length) :
    (w.getD i []).length = n := by
  rw [List.getD_eq_getElem _ _ hi]
  exact hw _ (List.getElem_mem hi)

theorem subWord_length (x : Bytes) : (subWord x).length = x.length := List.length_map _

theorem rotWord_length (x : Bytes) : (rotWord x).length = x.length := by
  simp only [rotWord, List.length_append, List.length_drop, List.length_take]
  omega

theorem rcon_length (j : Nat) : (rcon j).length = 4 := rfl

/-- R182: every further round-key word has 4 bytes. -/
theorem nextKeyWord_length {nk : Nat} {w : List Bytes} (hw : ∀ x ∈ w, x.length = 4) (hpos : 0 < nk)
    (hnk : nk ≤ w.length) : (nextKeyWord nk w).length = 4 := by
  have hlast : (w.getD (w.length - 1) []).length = 4 := length_getD_of_forall hw (by omega)
  have hback : (w.getD (w.length - nk) []).length = 4 := length_getD_of_forall hw (by omega)
  simp only [nextKeyWord, xorBytes_length, hback]
  split
  · simp only [xorBytes_length, subWord_length, rotWord_length, rcon_length, hlast, min_self]
  · split <;> simp only [subWord_length, hlast, min_self]

theorem extendKeyWords_lengths {nk : Nat} (hpos : 0 < nk) (count : Nat) {w : List Bytes} (hw : ∀ x ∈ w, x.length = 4)
    (hnk : nk ≤ w.length) :
    (extendKeyWords nk count w).length = w.length + count ∧ ∀ x ∈ extendKeyWords nk count w, x.length = 4 := by
  induction count generalizing w with
  | zero => exact ⟨rfl, hw⟩
  | succ count ih =>
    have hnext : ∀ x ∈ w ++ [nextKeyWord nk w], x.length = 4 := by
      simpa [or_imp, forall_and] using ⟨hw, nextKeyWord_length hw hpos hnk⟩
    obtain ⟨hlength, hwords⟩ := ih hnext (by simp; omega)
    exact ⟨by rw [extendKeyWords, hlength]; simp; omega, hwords⟩

/-- R171, R182: 4·(Nr + 1) round-key words of 4 bytes, Nr being the number of key words and 6. -/
theorem length_flatten_keyExpansion {k : Bytes} (hk : 4 ≤ k.length) :
    (keyExpansion k).flatten.length = 16 * (k.length / 4 + 7) := by
  have hfirst : ∀ x ∈ (List.range (keyWords k)).map (piece 4 k), x.length = 4 := fun _ hx =>
    length_of_mem_pieces (Nat.mul_div_le _ _) hx
  obtain ⟨hlength, hwords⟩ := extendKeyWords_lengths (nk := keyWords k) (Nat.div_pos hk (by decide))
    (4 * (keyRounds k + 1) - keyWords k) hfirst (by simp)
  rw [keyExpansion, length_flatten_of_forall hwords, hlength]
  simp only [List.length_map, List.length_range, keyRounds, keyWords]
  omega

/-! #### CBC and padding -/

theorem length_of_mem_blocks16 {s x : Bytes} (hx : x ∈ blocks16 s) : x.length = 16 :=
  length_of_mem_pieces (Nat.mul_div_le _ _) hx

@[simp] theorem blocks16_length (s : Bytes) : (blocks16 s).length = s.length / 16 := by simp [blocks16]

theorem length_flatten_cbcEncryptBlocks (w : List Bytes) (chain : Bytes) (blocks : List Bytes) :
    (cbcEncryptBlocks w chain blocks).flatten.length = 16 * blocks.length := by
  induction blocks generalizing chain with
  | nil => rfl
  | cons x xs ih =>
    simp only [cbcEncryptBlocks, List.flatten_cons, List.length_append, aesEncrypt_length, ih, List.length_cons]
    omega

theorem length_flatten_cbcDecryptBlocks (w : List Bytes) {chain : Bytes} {blocks : List Bytes} (hchain : chain.length = 16)
    (hblocks : ∀ x ∈ blocks, x.length = 16) : (cbcDecryptBlocks w chain blocks).flatten.length = 16 * blocks.length := by
  induction blocks generalizing chain with
  | nil => rfl
  | cons x xs ih =>
    obtain ⟨hx, hxs⟩ := List.forall_mem_cons.1 hblocks
    simp only [cbcDecryptBlocks, List.flatten_cons, List.length_append, xorBytes_length, aesDecrypt_length, hchain, ih hx hxs,
      List.length_cons]
    omega

theorem cbcEncrypt_length {s : Bytes} (k iv : Bytes) (hwhole : s.length % 16 = 0) : (cbcEncrypt s k iv).length = s.length := by
  rw [cbcEncrypt, length_flatten_cbcEncryptBlocks, blocks16_length]
  omega

theorem cbcDecrypt_length {s iv : Bytes} (k : Bytes) (hwhole : s.length % 16 = 0) (hiv : iv.length = 16) :
    (cbcDecrypt s k iv).length = s.length := by
  rw [cbcDecrypt, length_flatten_cbcDecryptBlocks _ hiv fun _ => length_of_mem_blocks16, blocks16_length]
  omega

theorem pkcs7PadBytes_length (d : Bytes) : (pkcs7PadBytes d).length = 16 * (d.length / 16 + 1) := by
  simp only [pkcs7PadBytes, List.length_append, List.length_replicate, padCount]
  omega

/-- R231, R266: an envelope is its IV and the padded plaintext. -/
theorem encryptEnvelope_length {iv : Bytes} (plain k : Bytes) (hiv : iv.length = 16) :
    (encryptEnvelope plain k iv).length = 16 + 16 * (plain.length / 16 + 1) := by
  have hpad := pkcs7PadBytes_length plain
  rw [encryptEnvelope, ivPrependBytes, List.length_append, hiv, cbcEncrypt_length k iv (by omega), hpad]

/-- R232: what is taken off is 1 to 16 bytes. -/
theorem length_of_unpadResult {x out : Bytes} (hx : 16 ≤ x.length) (h : unpadResult x = .ok out) :
    ∃ n, 1 ≤ n ∧ n ≤ 16 ∧ out.length + n = x.length := by
  have hsome : pkcs7UnpadBytes x = some out := by rw [← toOption_unpadResult, h]; rfl
  unfold pkcs7UnpadBytes at hsome
  dsimp only at hsome
  split at hsome
  · cases hsome
  next hrange =>
  split at hsome <;> cases hsome
  exact ⟨(x.getD (x.length - 1) 0).toNat, by omega, by omega, by rw [List.length_take]; omega⟩

/-- R268: a decrypted envelope has lost its IV and the padding. -/
theorem length_of_decryptEnvelope {env k out : Bytes} (henv : 16 < env.length) (h : decryptEnvelope env k = .ok out) :
    ∃ n, 1 ≤ n ∧ n ≤ 16 ∧ out.length + 16 + n = env.length := by
  obtain ⟨_, hraise, hunpad⟩ := bind_eq_ok.1 h
  have hwhole : (env.drop 16).length % 16 = 0 := by simpa [splitEnvelope] using raiseIf_eq_ok.1 hraise
  have hplain : (cbcDecrypt (env.drop 16) k (env.take 16)).length = env.length - 16 := by
    rw [cbcDecrypt_length k hwhole (List.length_take_of_le henv.le), List.length_drop]
  obtain ⟨n, hpos, hle, hsum⟩ := length_of_unpadResult (by rw [List.length_drop] at hwhole; omega) hunpad
  exact ⟨n, hpos, hle, by omega⟩

/-- R77: a non-empty string of whole blocks holds at least one. -/
theorem wholeBlocks_cases {n : Nat} (h : wholeBlocks n = true) : n % 16 = 0 ∧ 16 ≤ n := by
  have hn : n ≠ 0 ∧ n % 16 = 0 := by simpa [wholeBlocks] using h
  omega

/-- Settles O46: the constraints on the operands hold, and the length is that of the command's computation. -/
theorem resultsHaveTheTabledLengths : Obligations.ResultsHaveTheTabledLengths := by
  intro p i a b c iv out hiv hresult
  obtain ⟨hwf, hout⟩ := commandResult_eq_ok.1 hresult
  obtain ⟨-, hlengths⟩ := Bool.and_eq_true_iff.1 hwf
  cases i
  case decryptAes256 | decryptPhraseAes256 =>
    obtain ⟨henvelope, -⟩ := Bool.and_eq_true_iff.1 hlengths
    exact length_of_decryptEnvelope (of_decide_eq_true henvelope) hout
  case pkcs7Unpad => exact length_of_unpadResult (wholeBlocks_cases hlengths).2 hout
  all_goals cases hout
  case digestSha256 => exact sha256_length a
  case digestSha512 => exact sha512_length a
  case deriveKeyAes256 => exact kdf_length p b c
  case encryptAes256 => exact encryptEnvelope_length a b hiv
  case encryptPhraseAes256 => exact encryptEnvelope_length a (kdf p b c) hiv
  case aesKeyExpand =>
    have hexpanded (hb : 4 ≤ b.length) := length_flatten_keyExpansion hb
    refine ⟨fun hb => ?_, fun hb => ?_, fun hb => ?_⟩ <;> rw [hexpanded (by omega), hb]
  case aesCbcEncrypt =>
    simp only [lengthsLegal, Bool.and_eq_true] at hlengths
    obtain ⟨⟨ha, -⟩, -⟩ := hlengths
    exact cbcEncrypt_length b c (wholeBlocks_cases ha).1
  case aesCbcDecrypt =>
    simp only [lengthsLegal, Bool.and_eq_true, beq_iff_eq] at hlengths
    obtain ⟨⟨ha, -⟩, hc⟩ := hlengths
    exact cbcDecrypt_length b (wholeBlocks_cases ha).1 hc
  case pkcs7Pad => exact pkcs7PadBytes_length a
  case ivPrepend => rw [ivPrependBytes, List.length_append, eq_of_beq hlengths]

end Sys2Proof.Machine
end

section
/-! PROOFS. The message padding and the message schedules of the two hash functions (R103, R106, R121, R125). -/

namespace Sys2Proof.Machine

open Sys2Proof.Claim

/-! #### Padding -/

section Padding

variable {block lenBytes len j k : Nat}

/-- R103, R121: the number of zeros leaves exactly the length field of the last block. -/
theorem fills_shaZeroCount (hpos : 0 < lenBytes) (hle : lenBytes ≤ block) :
    fills block (block - lenBytes) len (shaZeroCount block lenBytes len) := by
  have hrest : len % block < block := Nat.mod_lt len (hpos.trans_le hle)
  have hsum : len % block + 1 + (2 * block - 1 - lenBytes - len % block) = block - lenBytes + block := by omega
  unfold fills shaZeroCount
  calc (len + 1 + (2 * block - 1 - lenBytes - len % block) % block) % block
      = (len % block + 1 + (2 * block - 1 - lenBytes - len % block)) % block := by
        rw [Nat.add_mod_mod, Nat.add_assoc, Nat.add_assoc, Nat.mod_add_mod]
    _ = block - lenBytes := by
        rw [hsum, Nat.add_mod_right, Nat.mod_eq_of_lt (by omega)]

/-- R103, R121: below a block, one number of zeros at most fills. -/
theorem eq_of_fills {room : Nat} (hj : fills block room len j) (hk : fills block room len k) (hjlt : j < block)
    (hklt : k < block) : j = k :=
  (Nat.ModEq.add_left_cancel' (len + 1) (hj.trans hk.symm)).eq_of_lt_of_lt hjlt hklt

theorem shaZeroCount_lt (hpos : 0 < block) : shaZeroCount block lenBytes len < block := Nat.mod_lt _ hpos

/-- R103, R121: fewer zeros than `shaZeroCount` do not fill. -/
theorem not_fills_of_lt_shaZeroCount (hpos : 0 < lenBytes) (hle : lenBytes ≤ block)
    (hlt : j < shaZeroCount block lenBytes len) : ¬ fills block (block - lenBytes) len j := fun hj =>
  have hbound : shaZeroCount block lenBytes len < block := shaZeroCount_lt (hpos.trans_le hle)
  hlt.ne (eq_of_fills hj (fills_shaZeroCount hpos hle) (hlt.trans hbound) hbound)

theorem shaPad_length (m : Bytes) :
    (shaPad block lenBytes m).length = m.length + 1 + shaZeroCount block lenBytes m.length + lenBytes := by
  simp only [shaPad, zeros, List.length_append, List.length_singleton, List.length_replicate, bytesBE_length]

/-- R103, R121: the length field ends the last block. -/
theorem shaPad_length_mod (hpos : 0 < lenBytes) (hle : lenBytes ≤ block) (m : Bytes) :
    (shaPad block lenBytes m).length % block = 0 := by
  have hfills : (m.length + 1 + shaZeroCount block lenBytes m.length) % block = block - lenBytes :=
    fills_shaZeroCount hpos hle
  rw [shaPad_length, ← Nat.mod_add_mod, hfills, Nat.sub_add_cancel hle, Nat.mod_self]

/-- R103, R121: the two paddings at once, for any block size and length field. -/
theorem shaPad_is_least (hpos : 0 < lenBytes) (hle : lenBytes ≤ block) (m : Bytes) :
    ∃ k, fills block (block - lenBytes) m.length k ∧ (∀ j, j < k → ¬ fills block (block - lenBytes) m.length j) ∧
      shaPad block lenBytes m = m ++ [0x80] ++ List.replicate k 0x00 ++ bytesBE lenBytes (8 * m.length) ∧
      (shaPad block lenBytes m).length % block = 0 :=
  ⟨shaZeroCount block lenBytes m.length, fills_shaZeroCount hpos hle,
    fun _ hj => not_fills_of_lt_shaZeroCount hpos hle hj, rfl, shaPad_length_mod hpos hle m⟩

end Padding

/-- Settles O47: the two paddings are `shaPad` with blocks of 64 and 128 bytes and length fields of 8 and 16. -/
theorem hashPaddingIsTheLeastThatFillsBlocks : Obligations.HashPaddingIsTheLeastThatFillsBlocks := fun m =>
  ⟨shaPad_is_least (block := 64) (lenBytes := 8) (by decide) (by decide) m,
    shaPad_is_least (block := 128) (lenBytes := 16) (by decide) (by decide) m⟩

/-! #### Schedules -/

section Schedule

variable {w : Nat} {small0 small1 : BitVec w → BitVec w} {ws : List (BitVec w)} {t : Nat}

/-- R106, R125: the word that the rule gives at place t from the words before it. -/
def scheduleWord (small0 small1 : BitVec w → BitVec w) (ws : List (BitVec w)) (t : Nat) : BitVec w :=
  small1 (ws.getD (t - 2) 0) + ws.getD (t - 7) 0 + small0 (ws.getD (t - 15) 0) + ws.getD (t - 16) 0

/-- R106, R125: every word from the sixteenth on is the one that the rule gives. -/
def FollowsSchedule (small0 small1 : BitVec w → BitVec w) (ws : List (BitVec w)) : Prop :=
  ∀ t, 16 ≤ t → t < ws.length → ws.getD t 0 = scheduleWord small0 small1 ws t

theorem shaExtend_succ (count : Nat) :
    shaExtend small0 small1 (count + 1) ws =
      shaExtend small0 small1 count (ws ++ [scheduleWord small0 small1 ws ws.length]) := rfl

theorem shaExtend_length (count : Nat) : (shaExtend small0 small1 count ws).length = ws.length + count := by
  induction count generalizing ws with
  | zero => rfl
  | succ count ih =>
    rw [shaExtend_succ, ih, List.length_append, List.length_singleton]
    omega

/-- Words once in the schedule stay where they are. -/
theorem prefix_shaExtend (count : Nat) : ws <+: shaExtend small0 small1 count ws := by
  induction count generalizing ws with
  | zero => exact List.prefix_rfl
  | succ count ih => exact (List.prefix_append ws _).trans ih

/-- The rule looks 2 to 16 words back, so a word appended does not change what it gives up to there. -/
theorem scheduleWord_append (x : BitVec w) (hsixteen : 16 ≤ t) (hle : t ≤ ws.length) :
    scheduleWord small0 small1 (ws ++ [x]) t = scheduleWord small0 small1 ws t := by
  have hback (n : Nat) (hn : 0 < n) : (ws ++ [x]).getD (t - n) 0 = ws.getD (t - n) 0 :=
    List.getD_append _ _ _ _ (by omega)
  rw [scheduleWord, hback 2 (by decide), hback 7 (by decide), hback 15 (by decide), hback 16 (by decide), scheduleWord]

/-- The word that the rule gives keeps the recurrence when it is appended. -/
theorem FollowsSchedule.append (hws : FollowsSchedule small0 small1 ws) :
    FollowsSchedule small0 small1 (ws ++ [scheduleWord small0 small1 ws ws.length]) := by
  intro t hsixteen hlt
  rw [List.length_append, List.length_singleton] at hlt
  rw [scheduleWord_append _ hsixteen (Nat.le_of_lt_succ hlt)]
  obtain hold | rfl := Nat.lt_succ_iff_lt_or_eq.1 hlt
  · rw [List.getD_append _ _ _ _ hold, hws t hsixteen hold]
  · rw [List.getD_append_right _ _ _ _ le_rfl, Nat.sub_self, List.getD_cons_zero]

theorem FollowsSchedule.extend (hws : FollowsSchedule small0 small1 ws) (count : Nat) :
    FollowsSchedule small0 small1 (shaExtend small0 small1 count ws) := by
  induction count generalizing ws with
  | zero => exact hws
  | succ count ih => exact ih hws.append

/-- R106, R125: the sixteen words of a block have no word that the rule would have to give. -/
theorem followsSchedule_of_length_eq (hblock : ws.length = 16) : FollowsSchedule small0 small1 ws :=
  fun _ hsixteen hlt => absurd (hblock ▸ hlt) hsixteen.not_gt

/-- R106, R125: the two schedules at once, for any word width and number of further words. -/
theorem shaExtend_follows_recurrence (hblock : ws.length = 16) {count total : Nat} (htotal : 16 + count = total) :
    (shaExtend small0 small1 count ws).length = total ∧ (shaExtend small0 small1 count ws).take 16 = ws ∧
      ∀ t, 16 ≤ t → t < total → (shaExtend small0 small1 count ws).getD t 0 =
        scheduleWord small0 small1 (shaExtend small0 small1 count ws) t := by
  have hlength : (shaExtend small0 small1 count ws).length = total := by rw [shaExtend_length, hblock, htotal]
  refine ⟨hlength, ?_, fun t hsixteen hlt =>
    (followsSchedule_of_length_eq hblock).extend count t hsixteen (hlength.symm ▸ hlt)⟩
  rw [← hblock, ← List.prefix_iff_eq_take.1 (prefix_shaExtend count)]

end Schedule

/-- Settles O48: both schedules are `shaExtend`, by 48 and by 64 words. -/
theorem schedulesFollowTheirRecurrence : Obligations.SchedulesFollowTheirRecurrence :=
  ⟨fun _ hblock => shaExtend_follows_recurrence hblock rfl, fun _ hblock => shaExtend_follows_recurrence hblock rfl⟩

end Sys2Proof.Machine
end

section
/-! PROOFS. The digest commands (R130, R131), by what exec reports of a command's result and of the error of a check. -/

namespace Sys2Proof.Machine

open Sys2Proof.Claim

variable {p : Params} {i : Instr} {a b c : Bytes} {e : CommandError}

/-- R31, R303: a command without a draw that gives a result completes with it. -/
theorem exec_of_commandResult_ok {s : State} {ch : Channel} {out : Bytes} (hch : s.channel? s.active = some ch)
    (hdraw : takesDraw i = false) (hresult : commandResult Config.params i ch.a ch.b ch.c s.iv = .ok out) :
    exec i s = .next (completed s 0x00 0x00 out) := by
  rw [exec_eq_next hch, hresult, executed_ofResult, drawsOf, hdraw]
  rfl

/-- R31, R303: a command that raises an error completes with it, takes no draw and leaves no result. -/
theorem exec_of_commandResult_error {s : State} {ch : Channel} (hch : s.channel? s.active = some ch)
    (hresult : commandResult Config.params i ch.a ch.b ch.c s.iv = .error e) :
    exec i s = .next (completed s (errorStatus e) (errorInfo e) []) := by
  rw [exec_eq_next hch, hresult, executed_ofResult, drawsOf_error]
  rfl

/-- R306: the error of a check on the operands is the error of the command. -/
theorem commandResult_of_inputChecks_error (hchecks : inputChecks p i a b c = .error e) (iv : Bytes) :
    commandResult p i a b c iv = .error e := by
  rw [commandResult_eq_bind, hchecks, except_error_bind]

/-- R80 step 3: the first operand read raises TOO_LONG before any other check. -/
theorem inputChecks_of_first_too_long {x : OperandName} {xs : List OperandName} (hreads : reads i = x :: xs)
    (hlong : p.maxLen < (operand x a b c).length) : inputChecks p i a b c = .error (.inputValidation .tooLong x) := by
  rw [inputChecks, hreads, checkSizes, decide_eq_true hlong]
  rfl

/-- R306: where the operands read fit, the command's own checks decide. -/
theorem inputChecks_of_operands_fit (hfits : ∀ x ∈ reads i, (operand x a b c).length ≤ p.maxLen) :
    inputChecks p i a b c = operandsCheck i a b c := by
  rw [inputChecks, checkSizes_eq_ok (u := ()).2 hfits, except_ok_bind]

theorem requireNonEmpty_nil (x : OperandName) : requireNonEmpty x [] = .error (.inputValidation .empty x) := rfl

/-- R130, R131: the digests share their constraints: a message that is not empty and fits. -/
theorem wellFormed_digest (hdigest : i = .digestSha256 ∨ i = .digestSha512) (hne : a ≠ []) (hle : a.length ≤ p.maxLen) :
    WellFormed p i a b c = true := by
  rcases hdigest with rfl | rfl <;> simp [WellFormed, sizesLegal, lengthsLegal, hne, hle]

/-- Settles O13: the message meets the constraints on it, and the computation is SHA-256. -/
theorem digestSha256Completes : Obligations.DigestSha256Completes := fun _ _ hch hne hle =>
  exec_of_commandResult_ok hch rfl (commandResult_eq_ok.2 ⟨wellFormed_digest (.inl rfl) hne hle, rfl⟩)

/-- Settles O14: the message meets the constraints on it, and the computation is SHA-512. -/
theorem digestSha512Completes : Obligations.DigestSha512Completes := fun _ _ hch hne hle =>
  exec_of_commandResult_ok hch rfl (commandResult_eq_ok.2 ⟨wellFormed_digest (.inr rfl) hne hle, rfl⟩)

/-- Settles O26: a long message fails the size check, and an empty one, which fits, the digest's own check. -/
theorem digestsReportTheirErrors : Obligations.DigestsReportTheirErrors := by
  intro s ch i hch hdigest
  have hreads : reads i = [.a] := by rcases hdigest with rfl | rfl <;> rfl
  have hcheck : operandsCheck i ch.a ch.b ch.c = requireNonEmpty .a ch.a := by rcases hdigest with rfl | rfl <;> rfl
  constructor
  · intro hlong
    exact exec_of_commandResult_error hch
      (commandResult_of_inputChecks_error (inputChecks_of_first_too_long hreads hlong) s.iv)
  · intro hempty
    have hfits : ∀ x ∈ reads i, (operand x ch.a ch.b ch.c).length ≤ Config.params.maxLen := by
      simp [hreads, operand, hempty]
    have hchecks : inputChecks Config.params i ch.a ch.b ch.c = .error (.inputValidation .empty .a) := by
      rw [inputChecks_of_operands_fit hfits, hcheck, hempty, requireNonEmpty_nil]
    exact exec_of_commandResult_error hch (commandResult_of_inputChecks_error hchecks s.iv)

end Sys2Proof.Machine
end

section
/-! PROOFS. Key derivation (R150, R151, R155) and DERIVE_KEY.AES256 (R160), the first command that reads two operands. -/

namespace Sys2Proof.Machine

open Sys2Proof.Claim

variable {p : Params} {i : Instr} {a b c phrase phrase' salt salt' : Bytes}

/-! #### The salt and the concatenation -/

theorem effectiveSalt_nil (p : Params) : effectiveSalt p [] = p.defaultSalt := rfl

theorem effectiveSalt_of_ne_nil (hne : salt ≠ []) : effectiveSalt p salt = salt :=
  if_neg (mt List.length_eq_zero_iff.1 hne)

/-- R151: the substitution, by the salt itself rather than by its length. -/
theorem effectiveSalt_eq (p : Params) (salt : Bytes) :
    effectiveSalt p salt = if salt = [] then p.defaultSalt else salt := by
  split
  next hempty => rw [hempty, effectiveSalt_nil]
  next hne => exact effectiveSalt_of_ne_nil hne

/-- R155: the default salt stands for itself, an empty one included. -/
theorem effectiveSalt_defaultSalt (p : Params) : effectiveSalt p p.defaultSalt = p.defaultSalt := by
  rw [effectiveSalt_eq, ite_self]

/-- R155: the derived key is a function of the concatenation. -/
theorem kdf_eq_of_append_eq (h : phrase ++ effectiveSalt p salt = phrase' ++ effectiveSalt p salt') :
    kdf p phrase salt = kdf p phrase' salt' := congrArg sha256 h

/-- Settles O49: in each clause the two concatenations are equal. -/
theorem keyDerivationSeesOnlyTheConcatenation : Obligations.KeyDerivationSeesOnlyTheConcatenation := by
  intro p phrase phrase' salt salt'
  have hdefault : effectiveSalt p [] = effectiveSalt p p.defaultSalt := by
    rw [effectiveSalt_nil, effectiveSalt_defaultSalt]
  exact ⟨kdf_eq_of_append_eq (congrArg (phrase ++ ·) hdefault), kdf_eq_of_append_eq, kdf_eq_of_append_eq rfl⟩

/-! #### The command -/

/-- Settles O15: the phrase and the salt meet the constraints on them, and the computation is the key derivation. -/
theorem deriveKeyCompletes : Obligations.DeriveKeyCompletes := by
  intro s ch hch hne hphrase hsalt
  have hwf : WellFormed Config.params .deriveKeyAes256 ch.a ch.b ch.c = true := by
    simp [WellFormed, sizesLegal, lengthsLegal, Config.params, hne, hphrase, hsalt]
  have hkey : kdf Config.params ch.b ch.c = sha256 (ch.b ++ if ch.c = [] then Config.defaultSalt else ch.c) := by
    rw [kdf, effectiveSalt_eq, Config.params]
  rw [← hkey]
  exact exec_of_commandResult_ok hch rfl (commandResult_eq_ok.2 ⟨hwf, rfl⟩)

/-- R80 step 3: the first operand of a list that is too long raises TOO_LONG, whatever follows it. -/
theorem checkSizes_of_too_long {x : OperandName} {xs ys : List OperandName}
    (hfits : ∀ y ∈ xs, (operand y a b c).length ≤ p.maxLen) (hlong : p.maxLen < (operand x a b c).length) :
    checkSizes p a b c (xs ++ x :: ys) = .error (.inputValidation .tooLong x) := by
  induction xs with
  | nil => rw [List.nil_append, checkSizes, decide_eq_true hlong, raiseIf_true, except_error_bind]
  | cons y xs ih =>
    obtain ⟨hy, hxs⟩ := List.forall_mem_cons.1 hfits
    rw [List.cons_append, checkSizes, decide_eq_false hy.not_gt, raiseIf_false, except_ok_bind, ih hxs]

/-- R80 step 3, R306: an operand too long raises TOO_LONG before any other check, where those read before it fit. -/
theorem inputChecks_of_too_long {x : OperandName} {xs ys : List OperandName} (hreads : reads i = xs ++ x :: ys)
    (hfits : ∀ y ∈ xs, (operand y a b c).length ≤ p.maxLen) (hlong : p.maxLen < (operand x a b c).length) :
    inputChecks p i a b c = .error (.inputValidation .tooLong x) := by
  rw [inputChecks, hreads, checkSizes_of_too_long hfits hlong, except_error_bind]

/-- Settles O27: the size check fails at the phrase, else at the salt, and an empty phrase, which fits, fails the command's own
check. -/
theorem deriveKeyReportsItsErrors : Obligations.DeriveKeyReportsItsErrors := by
  intro s ch hch
  have hreport {e : CommandError} (hchecks : inputChecks Config.params .deriveKeyAes256 ch.a ch.b ch.c = .error e) :
      exec .deriveKeyAes256 s = .next (completed s (errorStatus e) (errorInfo e) []) :=
    exec_of_commandResult_error hch (commandResult_of_inputChecks_error hchecks s.iv)
  refine ⟨fun hlong => hreport (inputChecks_of_first_too_long (x := .b) rfl hlong), fun hphrase hlong => ?_,
    fun hempty hsalt => ?_⟩
  · have hfits : ∀ y ∈ [OperandName.b], (operand y ch.a ch.b ch.c).length ≤ Config.params.maxLen :=
      List.forall_mem_singleton.2 hphrase
    exact hreport (inputChecks_of_too_long (x := .c) (ys := []) rfl hfits hlong)
  · have hfits : ∀ y ∈ reads .deriveKeyAes256, (operand y ch.a ch.b ch.c).length ≤ Config.params.maxLen := by
      simp [reads, operand, hempty, Config.params, hsalt]
    have hchecks : inputChecks Config.params .deriveKeyAes256 ch.a ch.b ch.c = .error (.inputValidation .empty .b) := by
      rw [inputChecks_of_operands_fit hfits, operandsCheck, hempty, requireNonEmpty_nil]
    exact hreport hchecks

end Sys2Proof.Machine
end

section
/-! PROOFS. MixColumns (R177) and InvMixColumns (R178): multiplication distributes over ⊕, so the product of their two matrices
is taken one byte of the column at a time. -/

namespace Sys2Proof.Machine

/-! #### Multiplication distributes over ⊕ -/

/-- R170: the shift, and the reduction where a bit falls out of the byte. -/
theorem xtime_eq (x : Byte) : xtime x = x <<< 1 ^^^ if x.msb then 0x1b else 0x00#8 := by
  rw [xtime]
  split
  · rfl
  · rw [BitVec.xor_zero]

theorem xtime_xor (x y : Byte) : xtime (x ^^^ y) = xtime x ^^^ xtime y := by
  have hreduction : ∀ p q : Bool, (if p ^^ q then 0x1b else 0x00#8) =
      (if p then 0x1b else 0x00#8) ^^^ if q then 0x1b else 0x00#8 := by decide
  rw [xtime_eq, xtime_eq, xtime_eq, BitVec.msb_xor, BitVec.shiftLeft_xor_distrib, hreduction]
  ac_rfl

theorem xtimes_xor (n : Nat) (x y : Byte) : xtimes n (x ^^^ y) = xtimes n x ^^^ xtimes n y := by
  induction n with
  | zero => rfl
  | succ n ih => rw [xtimes, ih, xtime_xor, xtimes, xtimes]

/-- R170: the sum over the bits of k distributes, as each of its terms does. -/
theorem gfMul_xor (k x y : Byte) : gfMul k (x ^^^ y) = gfMul k x ^^^ gfMul k y := by
  have hzero : (0 : Byte) ^^^ 0 = 0 := rfl
  rw [gfMul, ← hzero]
  refine List.foldl_hom₂ _ (· ^^^ ·) _ _ _ 0 0 fun p q i => ?_
  split
  · rw [xtimes_xor]
    ac_rfl
  · rfl

/-! #### One column -/

/-- R177: the byte of a mixed column in the place of `s0`; `s1`, `s2` and `s3` follow `s0` in the column, cyclically. -/
def mixByte (s0 s1 s2 s3 : Byte) : Byte := gfMul 0x02 s0 ^^^ gfMul 0x03 s1 ^^^ s2 ^^^ s3

/-- R178: the byte after `InvMixColumns` in the place of `s0`. -/
def invMixByte (s0 s1 s2 s3 : Byte) : Byte := gfMul 0x0e s0 ^^^ gfMul 0x0b s1 ^^^ gfMul 0x0d s2 ^^^ gfMul 0x09 s3

/-- R177: each row of the matrix is the one before it, turned by one place. -/
theorem mixColumn_eq (s0 s1 s2 s3 : Byte) :
    mixColumn s0 s1 s2 s3 = [mixByte s0 s1 s2 s3, mixByte s1 s2 s3 s0, mixByte s2 s3 s0 s1, mixByte s3 s0 s1 s2] := by
  simp only [mixColumn, mixByte, List.cons.injEq, and_true, true_and]
  refine ⟨?_, ?_, ?_⟩ <;> ac_rfl

/-- R178: and so is each row of the inverse matrix. -/
theorem invMixColumn_eq (s0 s1 s2 s3 : Byte) :
    invMixColumn s0 s1 s2 s3 =
      [invMixByte s0 s1 s2 s3, invMixByte s1 s2 s3 s0, invMixByte s2 s3 s0 s1, invMixByte s3 s0 s1 s2] := by
  simp only [invMixColumn, invMixByte, List.cons.injEq, and_true, true_and]
  refine ⟨?_, ?_, ?_⟩ <;> ac_rfl

/-- R177, R178: the first row of the product of the two matrices, entry by entry as it acts on a byte: the identity, then three
times zero. -/
theorem invMix_mix_first_row : ∀ x : Byte,
    gfMul 0x0e (gfMul 0x02 x) ^^^ gfMul 0x0b x ^^^ gfMul 0x0d x ^^^ gfMul 0x09 (gfMul 0x03 x) = x ∧
    gfMul 0x0e (gfMul 0x03 x) ^^^ gfMul 0x0b (gfMul 0x02 x) ^^^ gfMul 0x0d x ^^^ gfMul 0x09 x = 0#8 ∧
    gfMul 0x0e x ^^^ gfMul 0x0b (gfMul 0x03 x) ^^^ gfMul 0x0d (gfMul 0x02 x) ^^^ gfMul 0x09 x = 0#8 ∧
    gfMul 0x0e x ^^^ gfMul 0x0b x ^^^ gfMul 0x0d (gfMul 0x03 x) ^^^ gfMul 0x09 (gfMul 0x02 x) = 0#8 := by
  decide +kernel

/-- The sixteen products, gathered by the byte of the column they come from. -/
theorem invMixByte_mixByte (s0 s1 s2 s3 : Byte) :
    invMixByte (mixByte s0 s1 s2 s3) (mixByte s1 s2 s3 s0) (mixByte s2 s3 s0 s1) (mixByte s3 s0 s1 s2) = s0 := by
  obtain ⟨h0, -, -, -⟩ := invMix_mix_first_row s0
  obtain ⟨-, h1, -, -⟩ := invMix_mix_first_row s1
  obtain ⟨-, -, h2, -⟩ := invMix_mix_first_row s2
  obtain ⟨-, -, -, h3⟩ := invMix_mix_first_row s3
  calc invMixByte (mixByte s0 s1 s2 s3) (mixByte s1 s2 s3 s0) (mixByte s2 s3 s0 s1) (mixByte s3 s0 s1 s2)
    _ = (gfMul 0x0e (gfMul 0x02 s0) ^^^ gfMul 0x0b s0 ^^^ gfMul 0x0d s0 ^^^ gfMul 0x09 (gfMul 0x03 s0)) ^^^
        (gfMul 0x0e (gfMul 0x03 s1) ^^^ gfMul 0x0b (gfMul 0x02 s1) ^^^ gfMul 0x0d s1 ^^^ gfMul 0x09 s1) ^^^
        (gfMul 0x0e s2 ^^^ gfMul 0x0b (gfMul 0x03 s2) ^^^ gfMul 0x0d (gfMul 0x02 s2) ^^^ gfMul 0x09 s2) ^^^
        (gfMul 0x0e s3 ^^^ gfMul 0x0b s3 ^^^ gfMul 0x0d (gfMul 0x03 s3) ^^^ gfMul 0x09 (gfMul 0x02 s3)) := by
      simp only [invMixByte, mixByte, gfMul_xor]
      ac_rfl
    _ = s0 := by rw [h0, h1, h2, h3, BitVec.xor_zero, BitVec.xor_zero, BitVec.xor_zero]

/-! #### The state, cell by cell -/

theorem mixColumns_eq_ofCells (s : Bytes) :
    mixColumns s = ofCells fun r c => (mixColumn (cell s 0 c) (cell s 1 c) (cell s 2 c) (cell s 3 c)).getD r 0 := rfl

theorem invMixColumns_eq_ofCells (s : Bytes) :
    invMixColumns s = ofCells fun r c => (invMixColumn (cell s 0 c) (cell s 1 c) (cell s 2 c) (cell s 3 c)).getD r 0 := rfl

/-- R172: a state given by its cells is s where each cell is that of s. -/
theorem ofCells_eq {f : (r c : Nat) → Byte} {s : Bytes} (hs : s.length = 16)
    (hcells : ∀ r c, r < 4 → c < 4 → f r c = cell s r c) : ofCells f = s := by
  rw [← ofCells_cell hs]
  refine List.map_congr_left fun i hi => ?_
  have hlt := List.mem_range.1 hi
  exact hcells _ _ (by omega) (by omega)

/-- Settles O50: in each cell the two column maps cancel. -/
theorem invMixColumnsUndoesMixColumns : Obligations.InvMixColumnsUndoesMixColumns := by
  intro s hs
  rw [invMixColumns_eq_ofCells]
  refine ofCells_eq hs fun r c hr hc => ?_
  simp only [mixColumns_eq_ofCells, cell_ofCells, hc, Nat.reduceLT, mixColumn_eq, invMixColumn_eq, List.getD_cons_zero,
    List.getD_cons_succ, invMixByte_mixByte]
  match r, hr with
  | 0, _ | 1, _ | 2, _ | 3, _ => rfl

end Sys2Proof.Machine
end

section
/-! PROOFS. The block cipher and its inverse (R190 to R192): each step of a round is undone, hence the rounds, hence the cipher. -/

namespace Sys2Proof.Machine

variable {s x : Bytes} (w : List Bytes)

/-! #### The steps of a round -/

theorem invShiftRows_shiftRows (hs : s.length = 16) : invShiftRows (shiftRows s) = s := by
  refine ofCells_eq hs fun r c hr hc => ?_
  have hback : ((c + 4 - r) % 4 + r) % 4 = c := by omega
  rw [shiftRows, cell_ofCells _ hr (Nat.mod_lt _ (by decide)), hback]

theorem invSubBytes_subBytes (s : Bytes) : invSubBytes (subBytes s) = s := by
  simp [invSubBytes, subBytes, Function.comp_def, invSbox_sbox]

theorem invSubBytes_invShiftRows (hs : s.length = 16) : invSubBytes (invShiftRows (shiftRows (subBytes s))) = s := by
  rw [invShiftRows_shiftRows ((subBytes_length s).trans hs), invSubBytes_subBytes]

/-- R179: adding a round key twice adds nothing. -/
theorem addRoundKey_addRoundKey (round : Nat) (hs : s.length = 16) : addRoundKey w round (addRoundKey w round s) = s := by
  refine ofCells_eq hs fun r c hr hc => ?_
  rw [addRoundKey, cell_ofCells _ hr hc, BitVec.xor_assoc, BitVec.xor_self, BitVec.xor_zero]

/-! #### The rounds -/

@[simp] theorem encryptRound_length (s : Bytes) (round : Nat) : (encryptRound w s round).length = 16 :=
  addRoundKey_length w round _

/-- R190, R191: a round of the inverse cipher starts between the steps of a round of the cipher, after its ShiftRows, and takes
the state back to there in the round before. -/
theorem decryptRound_encryptRound (s : Bytes) (round : Nat) :
    decryptRound w (shiftRows (subBytes (encryptRound w s round))) round = shiftRows (subBytes s) := by
  rw [decryptRound, invSubBytes_invShiftRows (encryptRound_length w s round), encryptRound,
    addRoundKey_addRoundKey w round (mixColumns_length _), invMixColumnsUndoesMixColumns _ (shiftRows_length _)]

theorem foldl_decryptRound_foldl_encryptRound (rounds : List Nat) (s : Bytes) :
    rounds.reverse.foldl (decryptRound w) (shiftRows (subBytes (rounds.foldl (encryptRound w) s))) =
      shiftRows (subBytes s) := by
  induction rounds generalizing s with
  | nil => rfl
  | cons round rounds ih =>
    rw [List.foldl_cons, List.reverse_cons, List.foldl_append, ih, List.foldl_cons, List.foldl_nil, decryptRound_encryptRound]

/-! #### The cipher -/

/-- R192: decryption undoes encryption, whatever the round-key words. -/
theorem aesDecrypt_aesEncrypt (hx : x.length = 16) : aesDecrypt (aesEncrypt x w) w = x := by
  simp only [aesDecrypt, aesEncrypt]
  rw [addRoundKey_addRoundKey w _ (shiftRows_length _), foldl_decryptRound_foldl_encryptRound,
    invSubBytes_invShiftRows (addRoundKey_length w 0 x), addRoundKey_addRoundKey w 0 hx]

/-- There are finitely many strings of n bytes, so a function on them that can be undone reaches all of them, and also undoes
what undoes it. -/
theorem apply_apply_of_leftInvOn {f g : Bytes → Bytes} {n : Nat} (hlength : ∀ x, (f x).length = n)
    (hundo : ∀ x : Bytes, x.length = n → g (f x) = x) (hx : x.length = n) : f (g x) = x := by
  have hinjective : Set.InjOn f {x | x.length = n} := Set.LeftInvOn.injOn hundo
  have hbijective := ((List.finite_length_eq Byte n).injOn_iff_bijOn_of_mapsTo fun x _ => hlength x).1 hinjective
  obtain ⟨y, hy, rfl⟩ := hbijective.surjOn hx
  exact congrArg f (hundo y hy)

/-- R192: encryption undoes decryption, being undone by it. -/
theorem aesEncrypt_aesDecrypt (hx : x.length = 16) : aesEncrypt (aesDecrypt x w) w = x :=
  apply_apply_of_leftInvOn (f := (aesEncrypt · w)) (g := (aesDecrypt · w)) (fun y => aesEncrypt_length y w)
    (fun _ => aesDecrypt_aesEncrypt w) hx

/-- Settles O52: nothing of it rests on the key. -/
theorem blockCipherAndInverseUndoEachOther : Obligations.BlockCipherAndInverseUndoEachOther := fun k _ _ hx =>
  ⟨aesDecrypt_aesEncrypt (keyExpansion k) hx, aesEncrypt_aesDecrypt (keyExpansion k) hx⟩

end Sys2Proof.Machine
end

section
/-! PROOFS. The key schedule (R182) and AES_KEY_EXPAND (R200). -/

namespace Sys2Proof.Machine

open Sys2Proof.Claim

variable {k : Bytes} {nk i : Nat} {w : List Bytes}

/-- R182: the rule for word i looks at the words before it only. -/
theorem nextKeyWord_take (hpos : 0 < nk) (hnk : nk ≤ i) (hi : i ≤ w.length) :
    nextKeyWord nk (w.take i) = xorBytes (w.getD (i - nk) [])
      (if i % nk = 0 then xorBytes (subWord (rotWord (w.getD (i - 1) []))) (rcon (i / nk))
        else if nk = 8 ∧ i % 8 = 4 then subWord (w.getD (i - 1) [])
        else w.getD (i - 1) []) := by
  have hback (n : Nat) (hn : 0 < n) (hni : n ≤ i) : (w.take i).getD (i - n) [] = w.getD (i - n) [] := by
    rw [List.getD_eq_getElem?_getD, List.getElem?_take_of_lt (by omega), List.getD_eq_getElem?_getD]
  rw [nextKeyWord, List.length_take_of_le hi, hback nk hpos hnk, hback 1 Nat.one_pos (by omega)]

/-- Words once in the schedule stay where they are. -/
theorem prefix_extendKeyWords (count : Nat) : w <+: extendKeyWords nk count w := by
  induction count generalizing w with
  | zero => exact List.prefix_rfl
  | succ count ih => exact (List.prefix_append w _).trans ih

/-- R182: every word added is the one that the rule gives from the words before it. -/
theorem getD_extendKeyWords (count : Nat) (hi : w.length ≤ i) (hlt : i < w.length + count) :
    (extendKeyWords nk count w).getD i [] = nextKeyWord nk ((extendKeyWords nk count w).take i) := by
  induction count generalizing w with
  | zero => omega
  | succ count ih =>
    rw [extendKeyWords]
    obtain rfl | hlater := Nat.eq_or_lt_of_le hi
    · obtain ⟨added, hadded⟩ := prefix_extendKeyWords (nk := nk) (w := w ++ [nextKeyWord nk w]) count
      simp [← hadded]
    · exact ih (by simpa using hlater) (by simp; omega)

/-- R171, R182: 4·(Nr + 1) round-key words. -/
theorem keyExpansion_length (hk : 4 ≤ k.length) : (keyExpansion k).length = 4 * (keyRounds k + 1) := by
  have hpos : 0 < keyWords k := Nat.div_pos hk (by decide)
  have hfirst : ∀ x ∈ (List.range (keyWords k)).map (piece 4 k), x.length = 4 := fun _ =>
    length_of_mem_pieces (Nat.mul_div_le _ _)
  obtain ⟨hlength, -⟩ := extendKeyWords_lengths hpos (4 * (keyRounds k + 1) - keyWords k) hfirst (by simp)
  rw [keyExpansion, hlength, List.length_map, List.length_range, keyRounds]
  omega

/-- R182: the first Nk words are the key's. -/
theorem getD_keyExpansion_of_lt (hi : i < keyWords k) : (keyExpansion k).getD i [] = piece 4 k i := by
  obtain ⟨added, hadded⟩ := prefix_extendKeyWords (nk := keyWords k) (w := (List.range (keyWords k)).map (piece 4 k))
    (4 * (keyRounds k + 1) - keyWords k)
  rw [keyExpansion, ← hadded, List.getD_append _ _ _ _ (by simpa using hi)]
  simp [hi]

/-- R182: every later word is the rule's. -/
theorem getD_keyExpansion_of_le (hi : keyWords k ≤ i) (hlt : i < 4 * (keyRounds k + 1)) :
    (keyExpansion k).getD i [] = nextKeyWord (keyWords k) ((keyExpansion k).take i) :=
  getD_extendKeyWords _ (by simpa using hi) (by simp; omega)

/-- R10: a piece of four bytes, byte by byte. -/
theorem piece_four (h : 4 * i + 4 ≤ k.length) :
    piece 4 k i = [k.getD (4 * i) 0, k.getD (4 * i + 1) 0, k.getD (4 * i + 2) 0, k.getD (4 * i + 3) 0] := by
  have hcons (n : Nat) (hn : n < k.length) : k.drop n = k.getD n 0 :: k.drop (n + 1) := by
    rw [List.drop_eq_getElem_cons hn, List.getD_eq_getElem _ _ hn]
  rw [piece, hcons _ (by omega), hcons _ (by omega), hcons _ (by omega), hcons _ (by omega)]
  rfl

/-- Settles O51: the key's words come first, and the rule gives every later one. -/
theorem keyExpansionFollowsItsRecurrence : Obligations.KeyExpansionFollowsItsRecurrence := by
  intro k nk nr hkey
  obtain ⟨rfl, rfl, hk⟩ : keyWords k = nk ∧ keyRounds k = nr ∧ 0 < keyWords k := by
    simp only [keyRounds, keyWords]
    omega
  have hpieces : 4 * keyWords k ≤ k.length := Nat.mul_div_le _ _
  have hlength := keyExpansion_length (k := k) (by omega)
  refine ⟨hlength, fun i hi => ?_, fun i hi hlt => ?_⟩
  · rw [getD_keyExpansion_of_lt hi, piece_four (by omega)]
  · rw [getD_keyExpansion_of_le hi hlt, nextKeyWord_take hk hi (by omega)]

/-- Settles O20: a key of a legal length always fits, and the computation is the key expansion. -/
theorem keyExpandCompletes : Obligations.KeyExpandCompletes := by
  intro s ch hch hkey
  have hfits : ch.b.length ≤ Config.maxLen := by
    have := Config.forty_eight_le_maxLen
    omega
  have hwf : WellFormed Config.params .aesKeyExpand ch.a ch.b ch.c = true := by
    simpa [WellFormed, sizesLegal, lengthsLegal, Config.params, hfits] using legalKeyLength_iff.2 hkey
  exact exec_of_commandResult_ok hch rfl (commandResult_eq_ok.2 ⟨hwf, rfl⟩)

end Sys2Proof.Machine
end

section
/-! PROOFS. The errors of the stage commands (R200, R242 to R244): each shared check where it fails, and unpadding. -/

namespace Sys2Proof.Machine

open Sys2Proof.Claim

variable {i : Instr} {a b c x d : Bytes} {e : CommandError}

/-! #### The shared checks -/

theorem requireNonEmpty_of_ne_nil {n : OperandName} (hne : x ≠ []) : requireNonEmpty n x = .ok () :=
  requireNonEmpty_eq_ok.2 hne

theorem requireRawKey_nil : requireRawKey [] = .error (.inputValidation .empty .b) := rfl

theorem requireRawKey_of_illegal_length (hne : b ≠ []) (hlength : legalKeyLength b.length = false) :
    requireRawKey b = .error (.inputValidation .length .b) := by
  rw [requireRawKey, requireNonEmpty_of_ne_nil hne, except_ok_bind, hlength, Bool.not_false, raiseIf_true]

theorem requireWholeBlocks_nil : requireWholeBlocks [] = .error (.inputValidation .empty .a) := rfl

theorem requireWholeBlocks_of_partial_block (hpartial : a.length % 16 ≠ 0) :
    requireWholeBlocks a = .error (.inputValidation .length .a) := by
  have hne : a ≠ [] := by
    rintro rfl
    exact hpartial rfl
  rw [requireWholeBlocks, requireNonEmpty_of_ne_nil hne, except_ok_bind, bne_iff_ne.2 hpartial, raiseIf_true]

theorem requireIv_nil : requireIv [] = .error (.inputValidation .empty .c) := rfl

theorem requireIv_of_length_ne (hne : c ≠ []) (hlength : c.length ≠ 16) :
    requireIv c = .error (.inputValidation .length .c) := by
  rw [requireIv, requireNonEmpty_of_ne_nil hne, except_ok_bind, bne_iff_ne.2 hlength, raiseIf_true]

/-! #### What exec reports of them -/

section Report

variable {s : State} {ch : Channel} (hch : s.channel? s.active = some ch)
include hch

/-- R306: the first operand read is too long. -/
theorem exec_of_first_too_long {n : OperandName} {ns : List OperandName} (hreads : reads i = n :: ns)
    (hlong : Config.maxLen < (operand n ch.a ch.b ch.c).length) :
    exec i s = .next (completed s 0x01 (errorInfo (.inputValidation .tooLong n)) []) :=
  exec_of_commandResult_error hch
    (commandResult_of_inputChecks_error (inputChecks_of_first_too_long (p := Config.params) hreads hlong) s.iv)

/-- R306: the operands read fit, and one of the command's own checks fails. -/
theorem exec_of_operandsCheck_error (hfits : ∀ n ∈ reads i, (operand n ch.a ch.b ch.c).length ≤ Config.maxLen)
    (hcheck : operandsCheck i ch.a ch.b ch.c = .error e) :
    exec i s = .next (completed s (errorStatus e) (errorInfo e) []) :=
  exec_of_commandResult_error hch (commandResult_of_inputChecks_error
    ((inputChecks_of_operands_fit (p := Config.params) hfits).trans hcheck) s.iv)

/-- R272, R306: the checks all pass, and the computation fails. -/
theorem exec_of_computation_error (hwf : WellFormed Config.params i ch.a ch.b ch.c = true)
    (hcomputation : computation Config.params i ch.a ch.b ch.c s.iv = .error e) :
    exec i s = .next (completed s (errorStatus e) (errorInfo e) []) :=
  exec_of_commandResult_error hch (by
    rw [commandResult_eq_bind, inputChecks_eq_ok (u := ()).2 hwf, except_ok_bind, hcomputation])

end Report

/-! #### Unpadding -/

/-- R232: what unpadding takes off are n bytes of value n. -/
theorem eq_append_pad_of_pkcs7UnpadBytes (hblock : 16 ≤ x.length) (h : pkcs7UnpadBytes x = some d) :
    ∃ n, 1 ≤ n ∧ n ≤ 16 ∧ x = d ++ List.replicate n (BitVec.ofNat 8 n) := by
  unfold pkcs7UnpadBytes at h
  dsimp only at h
  generalize (x.getD (x.length - 1) 0).toNat = n at h
  split at h
  · cases h
  next hrange =>
  split at h
  next hall =>
    obtain rfl := Option.some.inj h
    have hvalue : ∀ v ∈ x.drop (x.length - n), v = BitVec.ofNat 8 n := by
      intro v hv
      have hn : v.toNat = n := beq_iff_eq.1 (List.all_eq_true.1 hall v hv)
      rw [← hn, BitVec.ofNat_toNat, BitVec.setWidth_eq]
    have hpad : x.drop (x.length - n) = List.replicate n (BitVec.ofNat 8 n) :=
      List.eq_replicate_iff.2 ⟨by rw [List.length_drop]; omega, hvalue⟩
    exact ⟨n, by omega, by omega, by rw [← hpad, List.take_append_drop]⟩
  · cases h

theorem unpadResult_of_no_pad (hblock : 16 ≤ x.length)
    (hpad : ¬ ∃ (d : Bytes) (n : Nat), 1 ≤ n ∧ n ≤ 16 ∧ x = d ++ List.replicate n (BitVec.ofNat 8 n)) :
    unpadResult x = .error .decryptionFailure := by
  cases h : pkcs7UnpadBytes x with
  | none => rw [unpadResult, h]
  | some d => exact absurd ⟨d, eq_append_pad_of_pkcs7UnpadBytes hblock h⟩ hpad

/-- Settles O32: each clause is one failing check of its command, but for the pad, which the computation finds bad. -/
theorem otherStagesReportTheirErrors : Obligations.OtherStagesReportTheirErrors := by
  intro s ch hch
  have hkeyFits (h : ch.b.length ≤ Config.maxLen) :
      ∀ n ∈ reads .aesKeyExpand, (operand n ch.a ch.b ch.c).length ≤ Config.maxLen := List.forall_mem_singleton.2 h
  have hunpadFits (h : ch.a.length ≤ Config.maxLen) :
      ∀ n ∈ reads .pkcs7Unpad, (operand n ch.a ch.b ch.c).length ≤ Config.maxLen := List.forall_mem_singleton.2 h
  have hprependFits (ha : ch.a.length ≤ Config.maxLen) (hc : ch.c.length ≤ Config.maxLen) :
      ∀ n ∈ reads .ivPrepend, (operand n ch.a ch.b ch.c).length ≤ Config.maxLen :=
    List.forall_mem_cons.2 ⟨ha, List.forall_mem_singleton.2 hc⟩
  refine ⟨fun hlong => ?_, fun hempty => ?_, fun hne hlength hle => ?_, fun hlong => ?_, fun hempty => ?_,
    fun hpartial hle => ?_, fun hne hwhole hle hpad => ?_, fun ha hempty => ?_, fun ha hne hlength hc => ?_⟩
  · exact exec_of_first_too_long hch (n := .b) rfl hlong
  · exact exec_of_operandsCheck_error hch (hkeyFits (by simp [hempty])) (by rw [operandsCheck, hempty, requireRawKey_nil])
  · have hillegal : legalKeyLength ch.b.length = false :=
      Bool.eq_false_iff.2 fun h => hlength (by simpa using legalKeyLength_iff.1 h)
    exact exec_of_operandsCheck_error hch (hkeyFits hle) (requireRawKey_of_illegal_length hne hillegal)
  · exact exec_of_first_too_long hch (n := .a) rfl hlong
  · exact exec_of_operandsCheck_error hch (hunpadFits (by simp [hempty]))
      (by rw [operandsCheck, hempty, requireWholeBlocks_nil])
  · exact exec_of_operandsCheck_error hch (hunpadFits hle) (requireWholeBlocks_of_partial_block hpartial)
  · have hwf : WellFormed Config.params .pkcs7Unpad ch.a ch.b ch.c = true := by
      simp [WellFormed, sizesLegal, lengthsLegal, wholeBlocks, Config.params, hne, hwhole, hle]
    have hpos := List.length_pos_of_ne_nil hne
    exact exec_of_computation_error hch hwf (unpadResult_of_no_pad (by omega) hpad)
  · exact exec_of_operandsCheck_error hch (hprependFits ha (by simp [hempty]))
      (by rw [operandsCheck, hempty, requireIv_nil])
  · exact exec_of_operandsCheck_error hch (hprependFits ha hc) (requireIv_of_length_ne hne hlength)

end Sys2Proof.Machine
end

section
/-! PROOFS. CBC mode (R220 to R222): both directions take a string block by block, so that a fact about the mode is one
about the first block and then about the blocks behind it. -/

namespace Sys2Proof.Machine

variable {s x iv : Bytes}

/-! #### Strings and their blocks -/

/-- R11: ⊕ with the same string twice undoes itself. -/
theorem xorBytes_xorBytes {y : Bytes} (h : x.length = y.length) : xorBytes (xorBytes x y) y = x := by
  apply List.ext_getElem
  · simp only [xorBytes_length]
    omega
  · intro i _ _
    simp only [xorBytes, List.getElem_zipWith, BitVec.xor_assoc, BitVec.xor_self, BitVec.xor_zero]

/-- R10: the first pieces of a string, one after the other, are its front. -/
theorem flatten_pieces (n count : Nat) (s : Bytes) : ((List.range count).map (piece n s)).flatten = s.take (n * count) := by
  induction count with
  | zero => rfl
  | succ count ih =>
    rw [List.range_succ, List.map_append, List.flatten_append, ih, Nat.mul_succ, List.take_add]
    simp [piece]

theorem flatten_blocks16 (hwhole : s.length % 16 = 0) : (blocks16 s).flatten = s := by
  rw [blocks16, flatten_pieces, List.take_of_length_le (by omega)]

/-- R10: behind a first piece of full length the pieces are those of the rest. -/
theorem piece_append_succ {n : Nat} (hx : x.length = n) (i : Nat) : piece n (x ++ s) (i + 1) = piece n s i := by
  rw [piece, Nat.mul_succ, Nat.add_comm, ← List.drop_drop, List.drop_left' hx, piece]

theorem blocks16_append (hx : x.length = 16) : blocks16 (x ++ s) = x :: blocks16 s := by
  have hcount : (x ++ s).length / 16 = s.length / 16 + 1 := by
    rw [List.length_append, hx]
    omega
  rw [blocks16, hcount, List.range_succ_eq_map, List.map_cons, List.map_map]
  exact congrArg₂ List.cons (List.take_left' hx) (List.map_congr_left fun i _ => piece_append_succ hx i)

/-! #### The two directions, block by block -/

theorem cbcEncrypt_nil (k iv : Bytes) : cbcEncrypt [] k iv = [] := by simp [cbcEncrypt, blocks16, cbcEncryptBlocks]

theorem cbcDecrypt_nil (k iv : Bytes) : cbcDecrypt [] k iv = [] := by simp [cbcDecrypt, blocks16, cbcDecryptBlocks]

theorem cbcEncrypt_append (hx : x.length = 16) (s k iv : Bytes) :
    cbcEncrypt (x ++ s) k iv =
      aesEncrypt (xorBytes x iv) (keyExpansion k) ++ cbcEncrypt s k (aesEncrypt (xorBytes x iv) (keyExpansion k)) := by
  rw [cbcEncrypt, blocks16_append hx]
  rfl

theorem cbcDecrypt_append (hx : x.length = 16) (s k iv : Bytes) :
    cbcDecrypt (x ++ s) k iv = xorBytes (aesDecrypt x (keyExpansion k)) iv ++ cbcDecrypt s k x := by
  rw [cbcDecrypt, blocks16_append hx]
  rfl

/-- R222: block by block, the block cipher undoes itself, and ⊕ with the chain undoes itself. -/
theorem cbcDecrypt_cbcEncrypt_flatten {blocks : List Bytes} (hblocks : ∀ x ∈ blocks, x.length = 16) (k : Bytes)
    (hiv : iv.length = 16) : cbcDecrypt (cbcEncrypt blocks.flatten k iv) k iv = blocks.flatten := by
  induction blocks generalizing iv with
  | nil => rw [List.flatten_nil, cbcEncrypt_nil, cbcDecrypt_nil]
  | cons x xs ih =>
    obtain ⟨hx, hxs⟩ := List.forall_mem_cons.1 hblocks
    have hchained : (xorBytes x iv).length = 16 := by rw [xorBytes_length, hx, hiv, min_self]
    rw [List.flatten_cons, cbcEncrypt_append hx, cbcDecrypt_append (aesEncrypt_length _ _), aesDecrypt_aesEncrypt _ hchained,
      xorBytes_xorBytes (hx.trans hiv.symm), ih hxs (aesEncrypt_length _ _)]

theorem cbcDecrypt_cbcEncrypt (hwhole : s.length % 16 = 0) (k : Bytes) (hiv : iv.length = 16) :
    cbcDecrypt (cbcEncrypt s k iv) k iv = s := by
  simpa only [flatten_blocks16 hwhole] using
    cbcDecrypt_cbcEncrypt_flatten (blocks := blocks16 s) (fun _ => length_of_mem_blocks16) k hiv

/-- Settles O53: it holds under any key, and of no block too. -/
theorem cbcDecryptionUndoesEncryption : Obligations.CbcDecryptionUndoesEncryption := fun _ k _ _ hiv _ hwhole =>
  cbcDecrypt_cbcEncrypt hwhole k hiv

/-- Settles O54: the IV meets the first block only, whose decryption without the IV is the same under both. -/
theorem anotherIvChangesTheFirstBlockOnly : Obligations.AnotherIvChangesTheFirstBlockOnly := by
  intro c k iv iv' _ hiv hiv' hne hwhole
  have hpos := List.length_pos_of_ne_nil hne
  have hfirst : (c.take 16).length = 16 := List.length_take_of_le (by omega)
  have hblock (v : Bytes) (hv : v.length = 16) : (xorBytes (aesDecrypt (c.take 16) (keyExpansion k)) v).length = 16 := by
    rw [xorBytes_length, aesDecrypt_length, hv, min_self]
  rw [← List.take_append_drop 16 c, cbcDecrypt_append hfirst, cbcDecrypt_append hfirst, List.take_left' (hblock iv' hiv'),
    List.take_left' (hblock iv hiv), List.drop_left' (hblock iv' hiv'), List.drop_left' (hblock iv hiv),
    xorBytes_xorBytes ((aesDecrypt_length _ _).trans hiv.symm)]
  exact ⟨rfl, rfl⟩

end Sys2Proof.Machine
end

section
/-! PROOFS. PKCS7 padding (R230 to R233) and the lengths it gives (R231, R261). -/

namespace Sys2Proof.Machine

/-- R232: n bytes of value n, 1 ≤ n ≤ 16, are taken off whatever they stand behind. -/
theorem pkcs7UnpadBytes_append_pad {n : Nat} (d : Bytes) (hpos : 1 ≤ n) (hle : n ≤ 16) :
    pkcs7UnpadBytes (d ++ List.replicate n (BitVec.ofNat 8 n)) = some d := by
  have hvalue : (BitVec.ofNat 8 n).toNat = n := by
    rw [BitVec.toNat_ofNat]
    omega
  have hlength : (d ++ List.replicate n (BitVec.ofNat 8 n)).length = d.length + n := by simp
  have hlast : (d ++ List.replicate n (BitVec.ofNat 8 n)).getD (d.length + n - 1) 0 = BitVec.ofNat 8 n := by
    rw [List.getD_append_right _ _ _ _ (by omega), List.getD_replicate _ (by omega)]
  simp only [pkcs7UnpadBytes, hlength, hlast, hvalue, Nat.add_sub_cancel, List.drop_left, List.take_left]
  rw [if_neg (by omega), if_pos]
  simp [hvalue]

/-- Settles O55: what unpadding takes off is a pad, and a pad is taken off. -/
theorem unpadAcceptsExactlyValidPads : Obligations.UnpadAcceptsExactlyValidPads := by
  intro x d hne hwhole
  have hlength := List.length_pos_of_ne_nil hne
  constructor
  · exact eq_append_pad_of_pkcs7UnpadBytes (by omega)
  · rintro ⟨n, hpos, hle, rfl⟩
    exact pkcs7UnpadBytes_append_pad d hpos hle

/-- R233: the pad count lies between 1 and 16. -/
theorem pkcs7UnpadBytes_pkcs7PadBytes (d : Bytes) : pkcs7UnpadBytes (pkcs7PadBytes d) = some d :=
  pkcs7UnpadBytes_append_pad d (by simp only [padCount]; omega) (by simp only [padCount]; omega)

/-- Settles O56: the two special cases are pads of one byte and of sixteen. -/
theorem unpadUndoesPad : Obligations.UnpadUndoesPad :=
  ⟨pkcs7UnpadBytes_pkcs7PadBytes, fun x _ => pkcs7UnpadBytes_append_pad (n := 1) x (by decide) (by decide),
    pkcs7UnpadBytes_append_pad (n := 16) [] (by decide) (by decide)⟩

/-- Settles O57: the envelope is the IV and the padded data, which are at least one block. -/
theorem paddedAndEnvelopeLengths : Obligations.PaddedAndEnvelopeLengths := by
  intro d k iv hiv
  have henvelope := encryptEnvelope_length d k hiv
  exact ⟨pkcs7PadBytes_length d, rfl, henvelope, by omega, by omega⟩

end Sys2Proof.Machine
end

section
/-! PROOFS. The stage commands of CBC and padding (R240 to R244): where they complete, the errors of the CBC stages, and the
three stages that make an envelope. -/

namespace Sys2Proof.Machine

open Sys2Proof.Claim

variable {i : Instr} {a b c : Bytes} {e : CommandError} {u : Unit}

/-! #### The checks -/

theorem wholeBlocks_of_ne_nil (hne : a ≠ []) (hwhole : a.length % 16 = 0) : wholeBlocks a.length = true := by
  simp [wholeBlocks, hne, hwhole]

theorem legalKeyLength_iff_mem {n : Nat} : legalKeyLength n = true ↔ n ∈ [16, 24, 32] := by simp [legalKeyLength_iff]

theorem checkCbcOperands_eq_ok : checkCbcOperands a b c = .ok u ↔
    wholeBlocks a.length = true ∧ legalKeyLength b.length = true ∧ c.length = 16 := by
  simp only [checkCbcOperands, bind_eq_ok, requireWholeBlocks_eq_ok, requireRawKey_eq_ok, requireIv_eq_ok, exists_const]

/-- R77: every key that is legal and every IV fits. -/
theorem wellFormed_cbc (hcbc : i = .aesCbcEncrypt ∨ i = .aesCbcDecrypt) (hne : a ≠ []) (hwhole : a.length % 16 = 0)
    (hle : a.length ≤ Config.maxLen) (hkey : b.length = 16 ∨ b.length = 24 ∨ b.length = 32) (hiv : c.length = 16) :
    WellFormed Config.params i a b c = true := by
  have hroom := Config.forty_eight_le_maxLen
  have hb : b.length ≤ Config.maxLen := by omega
  have hc : 16 ≤ Config.maxLen := by omega
  have hlegal := legalKeyLength_iff.2 hkey
  have hblocks := wholeBlocks_of_ne_nil hne hwhole
  rcases hcbc with rfl | rfl <;>
    simp [WellFormed, sizesLegal, lengthsLegal, Config.params, hle, hb, hc, hlegal, hblocks, hiv]

/-! #### Where they complete -/

/-- Settles O21: the operands meet the constraints on them, and the computation is CBC encryption. -/
theorem cbcEncryptCompletes : Obligations.CbcEncryptCompletes := fun _ _ hch hne hwhole hle hkey hiv =>
  exec_of_commandResult_ok hch rfl (commandResult_eq_ok.2 ⟨wellFormed_cbc (.inl rfl) hne hwhole hle hkey hiv, rfl⟩)

/-- Settles O22: the operands meet the constraints on them, and the computation is CBC decryption. -/
theorem cbcDecryptCompletes : Obligations.CbcDecryptCompletes := fun _ _ hch hne hwhole hle hkey hiv =>
  exec_of_commandResult_ok hch rfl (commandResult_eq_ok.2 ⟨wellFormed_cbc (.inr rfl) hne hwhole hle hkey hiv, rfl⟩)

/-- Settles O23: nothing but the size of the data is constrained, and the computation is the padding. -/
theorem padCompletes : Obligations.PadCompletes := by
  intro s ch hch hle
  have hwf : WellFormed Config.params .pkcs7Pad ch.a ch.b ch.c = true := by
    simp [WellFormed, sizesLegal, lengthsLegal, Config.params, hle]
  exact exec_of_commandResult_ok hch rfl (commandResult_eq_ok.2 ⟨hwf, rfl⟩)

/-- Settles O24: the data hold a byte of padding at least, so they are not empty, and the computation takes the pad off. -/
theorem unpadCompletes : Obligations.UnpadCompletes := by
  intro s ch d n hch hpos hle hpad hwhole hfits
  have hne : ch.a ≠ [] := by
    apply List.ne_nil_of_length_pos
    rw [hpad, List.length_append, List.length_replicate]
    omega
  have hwf : WellFormed Config.params .pkcs7Unpad ch.a ch.b ch.c = true := by
    simp [WellFormed, sizesLegal, lengthsLegal, Config.params, hfits, wholeBlocks_of_ne_nil hne hwhole]
  have hresult : unpadResult ch.a = .ok d := by rw [unpadResult, hpad, pkcs7UnpadBytes_append_pad d hpos hle]
  exact exec_of_commandResult_ok hch rfl (commandResult_eq_ok.2 ⟨hwf, hresult⟩)

/-- Settles O25: an IV of 16 bytes always fits, and the computation puts it before the data. -/
theorem ivPrependCompletes : Obligations.IvPrependCompletes := by
  intro s ch hch hle hiv
  have hfits : 16 ≤ Config.maxLen := le_trans (by decide) Config.forty_eight_le_maxLen
  have hwf : WellFormed Config.params .ivPrepend ch.a ch.b ch.c = true := by
    simp [WellFormed, sizesLegal, lengthsLegal, Config.params, hle, hiv, hfits]
  exact exec_of_commandResult_ok hch rfl (commandResult_eq_ok.2 ⟨hwf, rfl⟩)

/-! #### The errors of the CBC stages -/

theorem checkCbcOperands_of_data_error (hdata : requireWholeBlocks a = .error e) : checkCbcOperands a b c = .error e := by
  rw [checkCbcOperands, hdata, except_error_bind]

theorem checkCbcOperands_of_key_error (hblocks : wholeBlocks a.length = true) (hkey : requireRawKey b = .error e) :
    checkCbcOperands a b c = .error e := by
  rw [checkCbcOperands, requireWholeBlocks_eq_ok (u := ()).2 hblocks, except_ok_bind, hkey, except_error_bind]

theorem checkCbcOperands_of_iv_error (hblocks : wholeBlocks a.length = true) (hlegal : legalKeyLength b.length = true)
    (hiv : requireIv c = .error e) : checkCbcOperands a b c = .error e := by
  rw [checkCbcOperands, requireWholeBlocks_eq_ok (u := ()).2 hblocks, except_ok_bind, requireRawKey_eq_ok (u := ()).2 hlegal,
    except_ok_bind, hiv]

/-- Settles O31: each clause is the check of one operand failing, those of the operands before it passed. -/
theorem cbcStagesReportTheirErrors : Obligations.CbcStagesReportTheirErrors := by
  intro s ch i hch hcbc ha hb hc
  have hreads : reads i = [.a, .b, .c] := by rcases hcbc with rfl | rfl <;> rfl
  have hcheck : operandsCheck i ch.a ch.b ch.c = checkCbcOperands ch.a ch.b ch.c := by rcases hcbc with rfl | rfl <;> rfl
  have hfits : ∀ n ∈ reads i, (operand n ch.a ch.b ch.c).length ≤ Config.maxLen := by
    simpa [hreads, operand] using ⟨ha, hb, hc⟩
  have hreport {e : CommandError} (h : checkCbcOperands ch.a ch.b ch.c = .error e) :
      exec i s = .next (completed s (errorStatus e) (errorInfo e) []) :=
    exec_of_operandsCheck_error hch hfits (hcheck.trans h)
  refine ⟨fun hempty => ?_, fun hpartial => ?_, fun hne hwhole hempty => ?_, fun hne hwhole hbne hlength => ?_,
    fun hne hwhole hkey hempty => ?_, fun hne hwhole hkey hcne hlength => ?_⟩
  · exact hreport (checkCbcOperands_of_data_error (by rw [hempty, requireWholeBlocks_nil]))
  · exact hreport (checkCbcOperands_of_data_error (requireWholeBlocks_of_partial_block hpartial))
  · exact hreport (checkCbcOperands_of_key_error (wholeBlocks_of_ne_nil hne hwhole) (by rw [hempty, requireRawKey_nil]))
  · have hillegal : legalKeyLength ch.b.length = false := Bool.eq_false_iff.2 (mt legalKeyLength_iff_mem.1 hlength)
    exact hreport (checkCbcOperands_of_key_error (wholeBlocks_of_ne_nil hne hwhole)
      (requireRawKey_of_illegal_length hbne hillegal))
  · exact hreport (checkCbcOperands_of_iv_error (wholeBlocks_of_ne_nil hne hwhole) (legalKeyLength_iff_mem.2 hkey)
      (by rw [hempty, requireIv_nil]))
  · exact hreport (checkCbcOperands_of_iv_error (wholeBlocks_of_ne_nil hne hwhole) (legalKeyLength_iff_mem.2 hkey)
      (requireIv_of_length_ne hcne hlength))

/-! #### The stages of an encryption -/

theorem cmdPad_eq_ok (a : Bytes) : cmdPad a = .ok (pkcs7PadBytes a) := rfl

theorem cmdCbcEncrypt_eq_ok (h : wholeBlocks a.length = true) (hkey : legalKeyLength b.length = true) (hiv : c.length = 16) :
    cmdCbcEncrypt a b c = .ok (cbcEncrypt a b c) := by
  rw [cmdCbcEncrypt, checkCbcOperands_eq_ok (u := ()).2 ⟨h, hkey, hiv⟩, except_ok_bind]

theorem cmdIvPrepend_eq_ok (hiv : c.length = 16) : cmdIvPrepend a c = .ok (ivPrependBytes c a) := by
  rw [cmdIvPrepend, requireIv_eq_ok (u := ()).2 hiv, except_ok_bind]

theorem cmdEncrypt_eq_ok (iv : Bytes) (hne : a ≠ []) (hkey : legalKeyLength b.length = true) :
    cmdEncrypt a b iv = .ok (encryptEnvelope a b iv) := by
  rw [cmdEncrypt, requireNonEmpty_of_ne_nil hne, except_ok_bind, keyFromRaw, requireRawKey_eq_ok (u := ()).2 hkey,
    except_ok_bind, except_ok_bind]

/-- R231: padded data are whole blocks, and there is always one. -/
theorem wholeBlocks_pkcs7PadBytes (d : Bytes) : wholeBlocks (pkcs7PadBytes d).length = true := by
  simp [wholeBlocks, pkcs7PadBytes_length]

/-- Settles O60: what one stage gives meets the checks of the next, and an envelope is made of what the stages compute. -/
theorem stagesComposeToEncryption : Obligations.StagesComposeToEncryption := by
  intro a k iv hne hiv hk
  have hkey := legalKeyLength_iff.2 hk
  exact ⟨_, _, _, cmdPad_eq_ok a, cmdCbcEncrypt_eq_ok (wholeBlocks_pkcs7PadBytes a) hkey hiv, cmdIvPrepend_eq_ok hiv,
    cmdEncrypt_eq_ok iv hne hkey⟩

end Sys2Proof.Machine
end

section
/-! PROOFS. The draws (R264, R303): an encryption that succeeds takes one, and nothing else takes any. -/

namespace Sys2Proof.Machine

open Sys2Proof.Claim

variable {i : Instr}

theorem takesDraw_iff : takesDraw i = true ↔ i = .encryptAes256 ∨ i = .encryptPhraseAes256 := by
  cases i <;> simp [takesDraw]

/-- R300, R303: STATUS says whether a command took the draw that it takes on success. -/
theorem drawsOf_eq_of_status (i : Instr) (r : Except CommandError Bytes) :
    drawsOf i r = if takesDraw i = true ∧ (Completion.ofResult r).status = statusOk then 1 else 0 := by
  cases r with
  | ok out => simp [drawsOf]
  | error e => simp [drawsOf_error, errorStatus_ne_ok]

/-- R31, R264, R303: an encryption that gives a result completes with it and takes one draw. -/
theorem exec_drawing_of_commandResult_ok {s : State} {ch : Channel} {out : Bytes} (hch : s.channel? s.active = some ch)
    (hdraw : takesDraw i = true) (hresult : commandResult Config.params i ch.a ch.b ch.c s.iv = .ok out) :
    exec i s = .next { completed s 0x00 0x00 out with draws := s.draws + 1 } := by
  rw [exec_eq_next hch, hresult, executed_ofResult, drawsOf, hdraw]
  rfl

/-- Settles O35: the STATUS in the channel is that of the result which decides the draws. -/
theorem onlySuccessfulEncryptionsTakeOneDraw : Obligations.OnlySuccessfulEncryptionsTakeOneDraw := by
  intro i s t ch hexec hch
  obtain ⟨_, -, hown, hdraws⟩ := exec_own_channel hexec
  obtain rfl := Option.some.inj (hch.symm.trans hown)
  rw [hdraws, drawsOf_eq_of_status]
  simp only [takesDraw_iff]
  rfl

end Sys2Proof.Machine
end

section
/-! PROOFS. The envelope (R266 to R272): where its decryption gives a plaintext, and that this undoes the encryption. -/

namespace Sys2Proof.Machine

variable {env k plain iv : Bytes}

/-- R268, R272: an envelope decrypts exactly where it is of whole blocks that end in a valid pad. -/
theorem decryptEnvelope_eq_ok (hlong : 16 < env.length) : decryptEnvelope env k = .ok plain ↔
    env.length % 16 = 0 ∧ pkcs7UnpadBytes (cbcDecrypt (env.drop 16) k (env.take 16)) = some plain := by
  have hoption := toOption_decryptEnvelope k hlong
  rw [← Option.ite_none_right_eq_some, ← hoption]
  cases decryptEnvelope env k <;> simp [Except.toOption]

/-- R272: every other envelope ends in the one opaque error. -/
theorem decryptEnvelope_eq_failure (hlong : 16 < env.length) (hbad : env.length % 16 ≠ 0 ∨
    pkcs7UnpadBytes (cbcDecrypt (env.drop 16) k (env.take 16)) = none) :
    decryptEnvelope env k = .error .decryptionFailure := by
  cases hresult : decryptEnvelope env k with
  | error e => rw [decryptEnvelope_error hresult]
  | ok plain =>
    obtain ⟨hwhole, hpad⟩ := (decryptEnvelope_eq_ok hlong).1 hresult
    simp [hwhole, hpad] at hbad

theorem take_encryptEnvelope (plain k : Bytes) (hiv : iv.length = 16) : (encryptEnvelope plain k iv).take 16 = iv :=
  List.take_left' hiv

theorem drop_encryptEnvelope (plain k : Bytes) (hiv : iv.length = 16) :
    (encryptEnvelope plain k iv).drop 16 = cbcEncrypt (pkcs7PadBytes plain) k iv :=
  List.drop_left' hiv

/-- R285: unpadding undoes padding, and CBC decryption undoes CBC encryption. -/
theorem decryptEnvelope_encryptEnvelope (plain k : Bytes) (hiv : iv.length = 16) :
    decryptEnvelope (encryptEnvelope plain k iv) k = .ok plain := by
  have hlength := encryptEnvelope_length plain k hiv
  have hpadded : (pkcs7PadBytes plain).length % 16 = 0 := by rw [pkcs7PadBytes_length, Nat.mul_mod_right]
  refine (decryptEnvelope_eq_ok (by omega)).2 ⟨by omega, ?_⟩
  rw [take_encryptEnvelope plain k hiv, drop_encryptEnvelope plain k hiv, cbcDecrypt_cbcEncrypt hpadded k hiv,
    pkcs7UnpadBytes_pkcs7PadBytes]

end Sys2Proof.Machine
end

section
/-! PROOFS. The envelope commands where they complete (R280 to R283), and how the four are related (R281, R285). -/

namespace Sys2Proof.Machine

variable {i : Instr} {a b c : Bytes}

/-! #### The constraints on their operands (R77, R79) -/

/-- R9, R171: no legal raw key is too long. -/
theorem le_maxLen_of_legalKeyLength {n : Nat} (hkey : legalKeyLength n = true) : n ≤ Config.maxLen := by
  have hroom := Config.forty_eight_le_maxLen
  have hn := legalKeyLength_iff.1 hkey
  omega

theorem wellFormed_encrypt (hne : a ≠ []) (ha : a.length ≤ Config.maxLen) (hkey : legalKeyLength b.length = true) :
    WellFormed Config.params .encryptAes256 a b c = true := by
  simp [WellFormed, sizesLegal, lengthsLegal, Config.params, hne, ha, hkey, le_maxLen_of_legalKeyLength hkey]

theorem wellFormed_encryptPhrase (hne : a ≠ []) (ha : a.length ≤ Config.maxLen) (hphrase : b ≠ [])
    (hb : b.length ≤ Config.maxLen) (hc : c.length ≤ Config.maxLen) :
    WellFormed Config.params .encryptPhraseAes256 a b c = true := by
  simp [WellFormed, sizesLegal, lengthsLegal, Config.params, hne, ha, hphrase, hb, hc]

theorem wellFormed_decrypt (hlong : 16 < a.length) (ha : a.length ≤ Config.maxLen) (hkey : legalKeyLength b.length = true) :
    WellFormed Config.params .decryptAes256 a b c = true := by
  simp [WellFormed, sizesLegal, lengthsLegal, Config.params, hlong, ha, hkey, le_maxLen_of_legalKeyLength hkey]

theorem wellFormed_decryptPhrase (hlong : 16 < a.length) (ha : a.length ≤ Config.maxLen) (hphrase : b ≠ [])
    (hb : b.length ≤ Config.maxLen) (hc : c.length ≤ Config.maxLen) :
    WellFormed Config.params .decryptPhraseAes256 a b c = true := by
  simp [WellFormed, sizesLegal, lengthsLegal, Config.params, hlong, ha, hphrase, hb, hc]

/-- R79: the sizes of the operands that ENCRYPT and DECRYPT read. -/
theorem fits_of_reads_eq_ab (hreads : reads i = [.a, .b]) (ha : a.length ≤ Config.maxLen) (hb : b.length ≤ Config.maxLen) :
    ∀ n ∈ reads i, (operand n a b c).length ≤ Config.maxLen := by
  simpa [hreads, operand] using ⟨ha, hb⟩

/-- R79: the sizes of the operands that their forms with a phrase read. -/
theorem fits_of_reads_eq_abc (hreads : reads i = [.a, .b, .c]) (ha : a.length ≤ Config.maxLen)
    (hb : b.length ≤ Config.maxLen) (hc : c.length ≤ Config.maxLen) :
    ∀ n ∈ reads i, (operand n a b c).length ≤ Config.maxLen := by
  simpa [hreads, operand] using ⟨ha, hb, hc⟩

/-! #### Where they complete -/

/-- Settles O16: the operands meet the constraints on them, and the computation is the envelope under the draw. -/
theorem encryptCompletes : Obligations.EncryptCompletes := fun _ _ hch hne ha hkey =>
  exec_drawing_of_commandResult_ok hch rfl
    (commandResult_eq_ok.2 ⟨wellFormed_encrypt hne ha (legalKeyLength_iff.2 hkey), rfl⟩)

/-- Settles O17: the operands meet the constraints on them, and the computation is the envelope under the derived key. -/
theorem encryptPhraseCompletes : Obligations.EncryptPhraseCompletes := fun _ _ hch hne ha hphrase hb hc =>
  exec_drawing_of_commandResult_ok hch rfl
    (commandResult_eq_ok.2 ⟨wellFormed_encryptPhrase hne ha hphrase hb hc, rfl⟩)

/-- Settles O18: the operands meet the constraints on them, and the envelope decrypts under the raw key. -/
theorem decryptCompletes : Obligations.DecryptCompletes := fun _ _ _ hch hlong hwhole ha hkey hpad =>
  exec_of_commandResult_ok hch rfl (commandResult_eq_ok.2
    ⟨wellFormed_decrypt hlong ha (legalKeyLength_iff.2 hkey), (decryptEnvelope_eq_ok hlong).2 ⟨hwhole, hpad⟩⟩)

/-- Settles O19: the operands meet the constraints on them, and the envelope decrypts under the derived key. -/
theorem decryptPhraseCompletes : Obligations.DecryptPhraseCompletes := fun _ _ _ hch hlong hwhole ha hphrase hb hc hpad =>
  exec_of_commandResult_ok hch rfl (commandResult_eq_ok.2
    ⟨wellFormed_decryptPhrase hlong ha hphrase hb hc, (decryptEnvelope_eq_ok hlong).2 ⟨hwhole, hpad⟩⟩)

/-! #### Decryption after encryption, and the derived key -/

/-- R285: under any key, a command that computes the envelope and one that computes its decryption undo each other, where both
are well formed. -/
theorem commandResult_round_trip {j : Instr} {p : Params} {plain k iv : Bytes} (hiv : iv.length = 16)
    (hi : computation p i plain b c iv = .ok (encryptEnvelope plain k iv))
    (hj : computation p j (encryptEnvelope plain k iv) b c iv = decryptEnvelope (encryptEnvelope plain k iv) k)
    (hwfi : WellFormed p i plain b c = true) (hwfj : WellFormed p j (encryptEnvelope plain k iv) b c = true) :
    ∃ e, commandResult p i plain b c iv = .ok e ∧ commandResult p j e b c iv = .ok plain ∧
      e.length = 16 + paddedLength plain.length ∧ e.take 16 = iv :=
  ⟨encryptEnvelope plain k iv, commandResult_eq_ok.2 ⟨hwfi, hi⟩,
    commandResult_eq_ok.2 ⟨hwfj, hj.trans (decryptEnvelope_encryptEnvelope plain k hiv)⟩,
    encryptEnvelope_length plain k hiv, take_encryptEnvelope plain k hiv⟩

/-- Settles O58: under either key the envelope is longer than its IV and fits, so both commands are well formed. -/
theorem decryptionReturnsWhatWasEncrypted : Obligations.DecryptionReturnsWhatWasEncrypted := by
  intro plain key phrase salt other iv hiv hne hroom
  have hfits : plain.length ≤ Config.maxLen := by omega
  have hlength (k : Bytes) := encryptEnvelope_length plain k hiv
  have hlong (k : Bytes) : 16 < (encryptEnvelope plain k iv).length := by rw [hlength]; omega
  have henvelope (k : Bytes) : (encryptEnvelope plain k iv).length ≤ Config.maxLen := by rw [hlength]; omega
  constructor
  · intro hk
    have hkey := legalKeyLength_iff.2 hk
    exact commandResult_round_trip (i := .encryptAes256) (j := .decryptAes256) hiv rfl rfl
      (wellFormed_encrypt hne hfits hkey) (wellFormed_decrypt (hlong key) (henvelope key) hkey)
  · intro hphrase hb hc
    exact commandResult_round_trip (i := .encryptPhraseAes256) (j := .decryptPhraseAes256) hiv rfl rfl
      (wellFormed_encryptPhrase hne hfits hphrase hb hc)
      (wellFormed_decryptPhrase (hlong _) (henvelope _) hphrase hb hc)

/-- R281: with a phrase and a salt that are accepted, both commands check the plaintext and then nothing that fails. -/
theorem inputChecks_encryptPhrase (hphrase : b ≠ []) (hb : b.length ≤ Config.maxLen) (hc : c.length ≤ Config.maxLen)
    (other : Bytes) : inputChecks Config.params .encryptPhraseAes256 a b c =
      inputChecks Config.params .encryptAes256 a (kdf Config.params b c) other := by
  have hlegal : legalKeyLength (kdf Config.params b c).length = true := by rw [kdf_length]; rfl
  by_cases ha : a.length ≤ Config.maxLen
  · rw [inputChecks_of_operands_fit (fits_of_reads_eq_abc rfl ha hb hc),
      inputChecks_of_operands_fit (fits_of_reads_eq_ab rfl ha (le_maxLen_of_legalKeyLength hlegal)),
      operandsCheck, operandsCheck, requireNonEmpty_of_ne_nil hphrase, requireRawKey_eq_ok (u := ()).2 hlegal]
  · have hlong : Config.params.maxLen < a.length := Nat.lt_of_not_le ha
    rw [inputChecks_of_first_too_long (x := .a) rfl hlong, inputChecks_of_first_too_long (x := .a) rfl hlong]

/-- Settles O59: past their checks, which agree, both commands compute the same envelope. -/
theorem phraseEncryptionIsEncryptionUnderDerivedKey : Obligations.PhraseEncryptionIsEncryptionUnderDerivedKey := by
  intro a b c other iv hphrase hb hc
  calc runEncryptPhraseAes256 Config.params a b c iv
      = inputChecks Config.params .encryptPhraseAes256 a b c >>=
          fun _ => .ok (encryptEnvelope a (kdf Config.params b c) iv) := commandResult_eq_bind _ .encryptPhraseAes256 _ _ _ _
    _ = inputChecks Config.params .encryptAes256 a (kdf Config.params b c) other >>=
          fun _ => .ok (encryptEnvelope a (kdf Config.params b c) iv) := by
        rw [inputChecks_encryptPhrase hphrase hb hc other]
    _ = runEncryptAes256 Config.params a (kdf Config.params b c) other iv :=
        (commandResult_eq_bind _ .encryptAes256 _ _ _ _).symm

end Sys2Proof.Machine
end

section
/-! PROOFS. The errors of the envelope commands (R262, R270, R272, R280 to R283): the data first, then the key, then the
decryption. -/

namespace Sys2Proof.Machine

open Sys2Proof.Claim

variable {i : Instr} {a b : Bytes}

theorem checkEnvelope_nil : checkEnvelope [] = .error (.inputValidation .empty .a) := rfl

theorem checkEnvelope_of_short (hpos : 1 ≤ a.length) (hshort : a.length ≤ 16) :
    checkEnvelope a = .error .malformedEnvelope := by
  rw [checkEnvelope, requireNonEmpty_of_ne_nil (List.ne_nil_of_length_pos hpos), except_ok_bind, decide_eq_true hshort,
    raiseIf_true]

theorem requireRawKey_of_length_not_mem (hne : b ≠ []) (hlength : b.length ∉ [16, 24, 32]) :
    requireRawKey b = .error (.inputValidation .length .b) :=
  requireRawKey_of_illegal_length hne (Bool.eq_false_iff.2 (mt legalKeyLength_iff_mem.1 hlength))

/-- R280, R281: the two encryptions share the check of the plaintext, which comes first. -/
theorem exec_of_empty_plaintext {s : State} {ch : Channel} (hch : s.channel? s.active = some ch)
    (hi : i = .encryptAes256 ∨ i = .encryptPhraseAes256)
    (hfits : ∀ n ∈ reads i, (operand n ch.a ch.b ch.c).length ≤ Config.maxLen) (hempty : ch.a = []) :
    exec i s = .next (completed s 0x01 0x11 []) := by
  have hcheck : operandsCheck i ch.a ch.b ch.c = .error (.inputValidation .empty .a) := by
    rcases hi with rfl | rfl <;> rw [operandsCheck, hempty, requireNonEmpty_nil, except_error_bind]
  exact exec_of_operandsCheck_error hch hfits hcheck

/-- Settles O28: past the check of the plaintext, that of the key or of the phrase fails. -/
theorem encryptionsReportTheirErrors : Obligations.EncryptionsReportTheirErrors := by
  intro s ch hch ha hb
  have hfits := fits_of_reads_eq_ab (i := .encryptAes256) (c := ch.c) rfl ha hb
  have hphraseFits (hc : ch.c.length ≤ Config.maxLen) :=
    fits_of_reads_eq_abc (i := .encryptPhraseAes256) rfl ha hb hc
  have hkeyError {e : CommandError} (hne : ch.a ≠ []) (h : requireRawKey ch.b = .error e) :
      exec .encryptAes256 s = .next (completed s (errorStatus e) (errorInfo e) []) :=
    exec_of_operandsCheck_error hch hfits (by rw [operandsCheck, requireNonEmpty_of_ne_nil hne, except_ok_bind, h])
  refine ⟨exec_of_empty_plaintext hch (.inl rfl) hfits, fun hne hempty => ?_, fun hne hbne hlength => ?_,
    fun hc => exec_of_empty_plaintext hch (.inr rfl) (hphraseFits hc), fun hc hne hempty => ?_⟩
  · exact hkeyError hne (by rw [hempty, requireRawKey_nil])
  · exact hkeyError hne (requireRawKey_of_length_not_mem hbne hlength)
  · exact exec_of_operandsCheck_error hch (hphraseFits hc)
      (by rw [operandsCheck, requireNonEmpty_of_ne_nil hne, except_ok_bind, hempty, requireNonEmpty_nil])

/-- R270: the two decryptions share the check of the envelope, which comes first. -/
theorem exec_of_bad_envelope {s : State} {ch : Channel} (hch : s.channel? s.active = some ch)
    (hi : i = .decryptAes256 ∨ i = .decryptPhraseAes256)
    (hfits : ∀ n ∈ reads i, (operand n ch.a ch.b ch.c).length ≤ Config.maxLen) :
    (ch.a = [] → exec i s = .next (completed s 0x01 0x11 [])) ∧
    (1 ≤ ch.a.length → ch.a.length ≤ 16 → exec i s = .next (completed s 0x03 0x01 [])) := by
  have hreport {e : CommandError} (h : checkEnvelope ch.a = .error e) :
      exec i s = .next (completed s (errorStatus e) (errorInfo e) []) := by
    refine exec_of_operandsCheck_error hch hfits ?_
    rcases hi with rfl | rfl <;> rw [operandsCheck, h, except_error_bind]
  refine ⟨fun hempty => ?_, fun hpos hshort => ?_⟩
  · exact hreport (by rw [hempty, checkEnvelope_nil])
  · exact hreport (checkEnvelope_of_short hpos hshort)

/-- Settles O29: past the check of the envelope, that of the key fails, or it passes and the envelope does not decrypt. -/
theorem decryptReportsItsErrors : Obligations.DecryptReportsItsErrors := by
  intro s ch hch ha hb
  have hfits := fits_of_reads_eq_ab (i := .decryptAes256) (c := ch.c) rfl ha hb
  obtain ⟨hempty, hshort⟩ := exec_of_bad_envelope hch (.inl rfl) hfits
  have hkeyError {e : CommandError} (hlong : 16 < ch.a.length) (h : requireRawKey ch.b = .error e) :
      exec .decryptAes256 s = .next (completed s (errorStatus e) (errorInfo e) []) :=
    exec_of_operandsCheck_error hch hfits
      (by rw [operandsCheck, checkEnvelope_eq_ok (u := ()).2 hlong, except_ok_bind, h])
  refine ⟨hempty, hshort, fun hlong hbempty => ?_, fun hlong hbne hlength => ?_, fun hlong hkey hbad => ?_⟩
  · exact hkeyError hlong (by rw [hbempty, requireRawKey_nil])
  · exact hkeyError hlong (requireRawKey_of_length_not_mem hbne hlength)
  · exact exec_of_computation_error hch (wellFormed_decrypt hlong ha (legalKeyLength_iff_mem.2 hkey))
      (decryptEnvelope_eq_failure hlong hbad)

/-- Settles O30: past the check of the envelope, the phrase is empty, or it is not and the envelope does not decrypt. -/
theorem decryptPhraseReportsItsErrors : Obligations.DecryptPhraseReportsItsErrors := by
  intro s ch hch ha hb hc
  have hfits := fits_of_reads_eq_abc (i := .decryptPhraseAes256) rfl ha hb hc
  obtain ⟨hempty, hshort⟩ := exec_of_bad_envelope hch (.inr rfl) hfits
  refine ⟨hempty, hshort, fun hlong hbempty => ?_, fun hlong hphrase hbad => ?_⟩
  · exact exec_of_operandsCheck_error hch hfits
      (by rw [operandsCheck, checkEnvelope_eq_ok (u := ()).2 hlong, except_ok_bind, hbempty, requireNonEmpty_nil])
  · exact exec_of_computation_error hch (wellFormed_decryptPhrase hlong ha hphrase hb hc)
      (decryptEnvelope_eq_failure hlong hbad)

end Sys2Proof.Machine
end

section
/-! PROOFS. Errors are precise (R303, R305), and every error but the decryption failure is a matter of lengths (R307). -/

namespace Sys2Proof.Machine

/-- R31, R303: an error's report is all that tells the channel of a failed command from that of any other. -/
theorem Channel.executed_of_error {r : Completion} (herror : r.status ≠ statusOk) (r' : Completion) :
    Channel.executed r = { Channel.executed r' with status := r.status, info := r.info, out := [] } := by
  simp [Channel.executed, herror]

/-- Settles O36: both commands write their report into a channel cleared alike, and neither writes another channel. -/
theorem errorsArePrecise : Obligations.ErrorsArePrecise := by
  intro i j s t u failed succeeded hi hfailed herror hj hsucceeded _
  obtain ⟨-, -, -, -, hothers, -⟩ := commandsLeaveEverythingElseUnchanged i s t hi
  obtain ⟨-, -, -, -, hothers', -⟩ := commandsLeaveEverythingElseUnchanged j s u hj
  obtain ⟨_, -, hown, -⟩ := exec_own_channel hi
  obtain ⟨_, -, hown', -⟩ := exec_own_channel hj
  cases hfailed.symm.trans hown
  cases hsucceeded.symm.trans hown'
  exact ⟨Channel.executed_of_error herror _, fun k hk => (hothers k hk).trans (hothers' k hk).symm⟩

variable {p : Params} {i : Instr} {a b c a' b' c' iv : Bytes} {e : CommandError}

theorem operand_length_congr (ha : a.length = a'.length) (hb : b.length = b'.length) (hc : c.length = c'.length)
    (x : OperandName) : (operand x a b c).length = (operand x a' b' c').length := by
  cases x
  · exact ha
  · exact hb
  · exact hc

theorem checkSizes_length_congr (ha : a.length = a'.length) (hb : b.length = b'.length) (hc : c.length = c'.length)
    (xs : List OperandName) : checkSizes p a b c xs = checkSizes p a' b' c' xs := by
  induction xs with
  | nil => rfl
  | cons x xs ih => rw [checkSizes, checkSizes, operand_length_congr ha hb hc x, ih]

/-- R77: each check on an operand is a condition on its length. -/
theorem operandsCheck_length_congr (ha : a.length = a'.length) (hb : b.length = b'.length) (hc : c.length = c'.length) :
    operandsCheck i a b c = operandsCheck i a' b' c' := by
  cases i <;>
    simp only [operandsCheck, checkCbcOperands, requireWholeBlocks, requireRawKey, requireIv, checkEnvelope, requireNonEmpty,
      ha, hb, hc]

theorem inputChecks_length_congr (ha : a.length = a'.length) (hb : b.length = b'.length) (hc : c.length = c'.length) :
    inputChecks p i a b c = inputChecks p i a' b' c' := by
  rw [inputChecks, inputChecks, checkSizes_length_congr ha hb hc, operandsCheck_length_congr ha hb hc]

/-- R306: an error other than a decryption failure is one of the checks on the operands. -/
theorem inputChecks_error_of_commandResult (hne : e ≠ .decryptionFailure) (h : commandResult p i a b c iv = .error e) :
    inputChecks p i a b c = .error e := by
  rw [commandResult_eq_bind] at h
  obtain hchecks | ⟨_, -, hcomputation⟩ := bind_eq_error.1 h
  · exact hchecks
  · exact absurd (computation_error hcomputation) hne

/-- Settles O44: such an error is one of the checks, and they see the lengths alone. -/
theorem checksDependOnLengthsOnly : Obligations.ChecksDependOnLengthsOnly := by
  intro p i a b c iv a' b' c' iv' e ha hb hc hne h
  refine commandResult_of_inputChecks_error ?_ iv'
  rw [← inputChecks_length_congr ha hb hc]
  exact inputChecks_error_of_commandResult hne h

end Sys2Proof.Machine
end

section
/-! PROOFS. Steps without a move (R325, R355), and where a step goes on (R312). -/

namespace Sys2Proof.Machine

variable {s t : State} {k : Nat} {ch : Channel} {m : Move} {rest : List Move}

theorem firstBusy_eq_none (hidle : ∀ ch ∈ s.channels, ch.busy = false) : firstBusy s = none :=
  List.findIdx?_eq_none_iff.2 hidle

/-- The lowest-numbered busy channel is the one found first busy. -/
theorem firstBusy_eq_some_of_lowest (hch : s.channel? k = some ch) (hbusy : ch.busy = true)
    (hlowest : ∀ (j : Nat) (other : Channel), j < k → s.channel? j = some other → other.busy = false) :
    firstBusy s = some k := by
  obtain ⟨hk, rfl⟩ := List.getElem?_eq_some_iff.1 hch
  refine List.findIdx?_eq_some_iff_getElem.2 ⟨hk, hbusy, fun j hj => ?_⟩
  simp [hlowest j _ hj (List.getElem?_eq_getElem (hj.trans hk))]

/-- With no move left a block without a busy channel rests (log 6). -/
theorem step_quiet (hagenda : s.agenda = []) (hfirst : firstBusy s = none) : step s = .next s := by
  simp [step, takeTurn, runOn, hagenda, hfirst]

/-- With no move left the channel found first busy takes its EXECUTE step (log 6). -/
theorem step_runs_on (hagenda : s.agenda = []) (hfirst : firstBusy s = some k) (hch : s.channel? k = some ch) :
    step s = executeChannel k ch s := by
  simp [step, takeTurn, runOn, hagenda, hfirst, hch]

/-- Settles O6: the lowest-numbered busy channel is the one that runs on, and without one the block rests. -/
theorem blockRunsOnWithoutMoves : Obligations.BlockRunsOnWithoutMoves := by
  intro s hagenda
  refine ⟨fun k ch i hch hbusy hlowest hdecode => ?_, fun hidle => step_quiet hagenda (firstBusy_eq_none hidle)⟩
  rw [step_runs_on hagenda (firstBusy_eq_some_of_lowest hch hbusy hlowest) hch, executeChannel_of_decode hdecode]

theorem exists_executeChannel_eq_next (hch : s.channel? k = some ch) : ∃ t, executeChannel k ch s = .next t := by
  obtain ⟨t, _, _, _, hnext, -⟩ := executeChannel_reports hch
  exact ⟨t, hnext⟩

theorem exists_channel (hk : k < s.channels.length) : ∃ ch, s.channel? k = some ch :=
  ⟨_, List.getElem?_eq_getElem hk⟩

theorem exists_step_eq_next_of_no_move (hagenda : s.agenda = []) : ∃ t, step s = .next t := by
  cases hfirst : firstBusy s with
  | none => exact ⟨s, step_quiet hagenda hfirst⟩
  | some k =>
    obtain ⟨ch, hch, -⟩ := firstBusy_eq_some hfirst
    rw [step_runs_on hagenda hfirst hch]
    exact exists_executeChannel_eq_next hch

/-- R312: a move that names a channel of the block is made, or lets the busy channel run. -/
theorem exists_step_eq_next_of_inRange (hagenda : s.agenda = m :: rest) (hin : m.inRange s.channels.length = true) :
    ∃ t, step s = .next t := by
  cases m with
  | submit k cmd a b c =>
    obtain ⟨ch, hch⟩ := exists_channel (of_decide_eq_true hin)
    cases hbusy : ch.busy with
    | true => exact step_submit_busy hagenda hch hbusy ▸ exists_executeChannel_eq_next hch
    | false => exact ⟨_, step_submit_idle hagenda hch hbusy⟩
  | execute k =>
    obtain ⟨ch, hch⟩ := exists_channel (of_decide_eq_true hin)
    cases hbusy : ch.busy with
    | true => exact step_execute_busy hagenda hch hbusy ▸ exists_executeChannel_eq_next hch
    | false => exact ⟨_, step_execute_idle hagenda hch hbusy⟩
  | collect k =>
    obtain ⟨ch, hch⟩ := exists_channel (of_decide_eq_true hin)
    cases hbusy : ch.busy with
    | true => exact step_collect_busy hagenda hch hbusy ▸ exists_executeChannel_eq_next hch
    | false => exact ⟨_, step_collect_idle hagenda hch hbusy⟩
  | readBusy k =>
    obtain ⟨ch, hch⟩ := exists_channel (of_decide_eq_true hin)
    exact ⟨_, step_readBusy hagenda hch⟩
  | readResultValid k =>
    obtain ⟨ch, hch⟩ := exists_channel (of_decide_eq_true hin)
    exact ⟨_, step_readResultValid hagenda hch⟩
  | reset => exact ⟨_, step_reset hagenda⟩

/-- A move that names no channel of the block faults (log 10). -/
theorem exists_step_eq_fault_of_not_inRange (hagenda : s.agenda = m :: rest) (hout : m.inRange s.channels.length = false) :
    ∃ k, step s = .fault (.noSuchChannel k) := by
  cases m
  case reset => cases hout
  case submit k _ _ _ _ | execute k | collect k | readBusy k | readResultValid k =>
    have hch : s.channel? k = none := List.getElem?_eq_none (Nat.not_lt.1 (of_decide_eq_false hout))
    exact ⟨k, by simp [step, takeTurn, moveSubmit, moveExecute, moveCollect, moveReadBusy, moveReadResultValid, hagenda, hch]⟩

/-- R312: a step answers a next state, or the fault of a channel number outside the block (log 10). -/
theorem step_next_or_fault (s : State) : (∃ t, step s = .next t) ∨ ∃ k, step s = .fault (.noSuchChannel k) := by
  cases hagenda : s.agenda with
  | nil => exact .inl (exists_step_eq_next_of_no_move hagenda)
  | cons m rest =>
    cases hrange : m.inRange s.channels.length with
    | true => exact .inl (exists_step_eq_next_of_inRange hagenda hrange)
    | false => exact .inr (exists_step_eq_fault_of_not_inRange hagenda hrange)

theorem exists_step_eq_next (hrange : s.agendaInRange) : ∃ t, step s = .next t := by
  cases hagenda : s.agenda with
  | nil => exact exists_step_eq_next_of_no_move hagenda
  | cons m rest => exact exists_step_eq_next_of_inRange hagenda (hrange m (by simp [hagenda]))

/-- R20: no step changes the number of channels. -/
theorem Moved.length_channels (hmoved : Moved s t) : t.channels.length = s.channels.length := by
  cases hmoved with
  | ran | submitted | collected => exact List.length_set
  | reset => exact List.length_map _
  | passed | idle => rfl

/-- No step adds a move to the agenda. -/
theorem Moved.agenda_subset (hmoved : Moved s t) : t.agenda ⊆ s.agenda := by
  cases hmoved with
  | ran _ _ _ _ _ _ _ _ hagenda =>
    obtain rfl | hagenda := hagenda
    · exact List.Subset.refl _
    · exact hagenda ▸ List.subset_cons_self _ _
  | submitted _ _ _ _ _ _ _ hagenda | collected _ _ _ hagenda | passed _ _ _ hagenda | reset _ hagenda =>
    exact hagenda ▸ List.subset_cons_self _ _
  | idle => exact List.Subset.refl _

theorem State.agendaInRange.of_moved (hrange : s.agendaInRange) (hmoved : Moved s t) : t.agendaInRange := by
  intro m hm
  rw [hmoved.length_channels]
  exact hrange m (hmoved.agenda_subset hm)

/-- Settles O40: a step refuses nothing, and an agenda in range lets it go on to one that is. -/
theorem stepAlwaysGoesOnWhereMovesAreInRange : Obligations.StepAlwaysGoesOnWhereMovesAreInRange := by
  intro s
  constructor
  · intro r hrefused
    obtain ⟨_, h⟩ | ⟨_, h⟩ := step_next_or_fault s <;> cases hrefused.symm.trans h
  · intro hrange
    obtain ⟨t, hnext⟩ := exists_step_eq_next hrange
    exact ⟨t, hnext, hrange.of_moved (moved_of_step hnext)⟩

end Sys2Proof.Machine
end

section
/-! PROOFS. Bounded progress (R355): each step takes a unit off the work pending, until the block is quiet. -/

namespace Sys2Proof.Machine

variable {s t : State} {k : Nat} {ch new : Channel}

theorem busyCount_pos (hch : s.channel? k = some ch) (hbusy : ch.busy = true) : 0 < busyCount s :=
  List.countP_pos_iff.2 ⟨ch, List.mem_of_getElem? hch, hbusy⟩

/-- A channel written over counts by its own flag in place of the old one's. -/
theorem busyCount_setChannel (hch : s.channel? k = some ch) :
    busyCount (s.setChannel k new) =
      busyCount s - (if ch.busy = true then 1 else 0) + if new.busy = true then 1 else 0 := by
  obtain ⟨hk, rfl⟩ := List.getElem?_eq_some_iff.1 hch
  exact List.countP_set hk

/-- R31: an EXECUTE step leaves one busy channel less. -/
theorem busyCount_setChannel_executed (hch : s.channel? k = some ch) (hbusy : ch.busy = true) (r : Completion) :
    busyCount (s.setChannel k (Channel.executed r)) = busyCount s - 1 := by
  simp [busyCount_setChannel hch, hbusy]

/-- R30: a SUBMIT makes one more channel busy. -/
theorem busyCount_setChannel_submitted (hch : s.channel? k = some ch) (hidle : ch.busy = false) (cmd : CommandWord)
    (a b c : Bytes) : busyCount (s.setChannel k (Channel.submitted cmd a b c)) = busyCount s + 1 := by
  simp [busyCount_setChannel hch, hidle]

/-- R32: a COLLECT changes no channel's `BUSY`. -/
theorem busyCount_setChannel_collected (hch : s.channel? k = some ch) (hidle : ch.busy = false) :
    busyCount (s.setChannel k ch.collected) = busyCount s := by
  simp [busyCount_setChannel hch, hidle]

/-- R340: after RESET no channel is busy. -/
theorem busyCount_resetBlock (s : State) : busyCount (resetBlock s) = 0 := by
  simp [busyCount, resetBlock, List.countP_eq_zero, Channel.reset]

theorem busyCount_eq_zero_of_firstBusy (hfirst : firstBusy s = none) : busyCount s = 0 :=
  List.countP_eq_zero.2 fun ch hch => Bool.not_eq_true _ ▸ List.findIdx?_eq_none_iff.1 hfirst ch hch

/-- R325: no work is pending exactly where nothing moves. -/
theorem pendingWork_eq_zero_iff : pendingWork s = 0 ↔ s.quiet := by
  simp [pendingWork, State.quiet]

/-- R355: a step takes at least a unit off the work pending, if any is left. A move weighs two units, so a SUBMIT, which makes
a channel busy, still takes one off. -/
theorem Moved.pendingWork_le (hmoved : Moved s t) : pendingWork t ≤ pendingWork s - 1 := by
  cases hmoved with
  | ran k ch agenda r d hch hbusy _ hagenda =>
    change 2 * agenda.length + busyCount (s.setChannel k _) ≤ 2 * s.agenda.length + busyCount s - 1
    have hlength : agenda.length ≤ s.agenda.length := by
      obtain rfl | hagenda := hagenda
      · exact le_rfl
      · simp [hagenda]
    have hpos : 0 < busyCount s := busyCount_pos hch hbusy
    rw [busyCount_setChannel_executed hch hbusy]
    omega
  | submitted k ch cmd a b c rest hagenda hch hidle =>
    change 2 * rest.length + busyCount (s.setChannel k _) ≤ 2 * s.agenda.length + busyCount s - 1
    rw [busyCount_setChannel_submitted hch hidle, hagenda, List.length_cons]
    omega
  | collected k ch rest hagenda hch hidle =>
    change 2 * rest.length + busyCount (s.setChannel k _) ≤ 2 * s.agenda.length + busyCount s - 1
    rw [busyCount_setChannel_collected hch hidle, hagenda, List.length_cons]
    omega
  | passed m rest replies hagenda =>
    change 2 * rest.length + busyCount s ≤ 2 * s.agenda.length + busyCount s - 1
    rw [hagenda, List.length_cons]
    omega
  | reset rest hagenda =>
    change 2 * rest.length + busyCount (resetBlock s) ≤ 2 * s.agenda.length + busyCount s - 1
    rw [busyCount_resetBlock, hagenda, List.length_cons]
    omega
  | idle hagenda hfirst =>
    have hquiet : pendingWork s = 0 := pendingWork_eq_zero_iff.2 ⟨hagenda, busyCount_eq_zero_of_firstBusy hfirst⟩
    omega

/-- A run goes on from where its first step leads. -/
theorem run_succ_of_step {M : Host.Core} {n : Nat} {s t : M.State} (hstep : M.step s = .next t) :
    M.run (n + 1) s = M.run n t := by
  rw [Host.Core.run, hstep]

/-- R355: a run of at least the work pending ends quiet. -/
theorem exists_run_eq_next_quiet {n : Nat} (hrange : s.agendaInRange) (hwork : pendingWork s ≤ n) :
    ∃ t : State, Host.Core.run Sys2Proof.core n s = .next t ∧ t.quiet := by
  induction n generalizing s with
  | zero => exact ⟨s, rfl, pendingWork_eq_zero_iff.1 (Nat.le_zero.1 hwork)⟩
  | succ n ih =>
    obtain ⟨m, hstep⟩ := exists_step_eq_next hrange
    have hmoved : Moved s m := moved_of_step hstep
    have hless : pendingWork m ≤ n := hmoved.pendingWork_le.trans (Nat.sub_le_of_le_add hwork)
    obtain ⟨t, hrun, hquiet⟩ := ih (hrange.of_moved hmoved) hless
    exact ⟨t, (run_succ_of_step (M := Sys2Proof.core) hstep).trans hrun, hquiet⟩

/-- Settles O39: each step takes a unit off the work pending, and the bound is that work at the start. -/
theorem everySubmittedCommandCompletes : Obligations.EverySubmittedCommandCompletes :=
  fun _ hrange => exists_run_eq_next_quiet hrange le_rfl

end Sys2Proof.Machine
end
